-- ==== Sys2Proof/Word.lean ====
section
/-! DEFINITION. The widths of the framer: bytes, 16-bit packet fields, 32-bit packet words, and the two ways of
holding a packet (four wire bytes; header and payload). Rules R16, R18, R100, R101. -/

namespace Sys2Proof

/-- One byte of a stream (R16). -/
abbrev Byte := BitVec 8

/-- A 16-bit field of a packet: a header, or a payload pattern (R17, R101). -/
abbrev Half := BitVec 16

/-- A packet word: header in bits 31:16, payload in bits 15:0 (R18). It is not the wire order. -/
abbrev Word := BitVec 32

/-- Four bytes in the order of the wire: `b0` first (R16, R75). -/
structure Bytes4 where
  b0 : Byte
  b1 : Byte
  b2 : Byte
  b3 : Byte
  deriving DecidableEq, Repr

/-- A packet by its two fields (R18). -/
structure Packet where
  header : Half
  payload : Half
  deriving DecidableEq, Repr

end Sys2Proof
end

