-- ==== Sys2Proof/Config.lean ====
section
/-! DEFINITION. What is fixed when the machine is built: the constants of rule R13, the parameters of rule R14, the
names those parameters range over, and the free values (uninterpreted: nothing can be proved of them). -/

namespace Sys2Proof

/-- Order of the two bytes of a 16-bit field on the wire (R74). -/
inductive ByteOrder where
  | little
  | big
  deriving DecidableEq, Repr, Inhabited

/-- The controller's `current_phase` (R32). Three values: code 3 cannot be written down (U17). -/
inductive Phase where
  | detectDevice
  | readUnit
  | readMeasurement
  deriving DecidableEq, Repr, Inhabited

/-- The stream a packet word is read from, which decides how it is decoded (R102, R110): a request at the peripheral,
or a response at the controller in one of its phases (the table's key `context`). -/
inductive Context where
  | request
  | response (phase : Phase)
  deriving DecidableEq, Repr

/-- Whose turn a step may be: the three agents of the composed system (R260), or the platform, which drives the reset
pin of each block to a level (R331; log entry 6). -/
inductive Agent where
  | controller
  | peripheral
  | wire
  | platform (ctrlRstN perRstN : Bool)
  deriving DecidableEq, Repr, Inhabited

/-- A pattern of four bytes: the bits where `mask` has a one are those of `value`, the others are free. -/
structure BytePattern where
  mask : Bytes4
  value : Bytes4
  deriving DecidableEq, Repr

/-- A configuration predicate on four bytes as plain data (R14, R266): it holds of the bytes that fit one of its
patterns. Every predicate that some four bytes satisfy is such a list (log entry 22). -/
structure DrawRule where
  first : BytePattern
  others : List BytePattern
  deriving DecidableEq, Repr

/-- "true (any bytes)", the default of R14. -/
def DrawRule.anyBytes : DrawRule := ⟨⟨⟨0#8, 0#8, 0#8, 0#8⟩, ⟨0#8, 0#8, 0#8, 0#8⟩⟩, []⟩

/-- Four fixed bytes: "a configuration a test may choose" (R266). -/
def DrawRule.exactly (b : Bytes4) : DrawRule := ⟨⟨⟨0xFF#8, 0xFF#8, 0xFF#8, 0xFF#8⟩, b⟩, []⟩

/-- The parameters a machine is built with (R14). They stand in the state, no step changes them, and a statement about
every state holds for every value of them (log entry 4). The two roles have a byte order each, since nothing but the
builder makes them agree (R338). -/
structure Params where
  /-- `BYTE_ORDER` of the controller block. -/
  cOrder : ByteOrder
  /-- `BYTE_ORDER` of the peripheral block. -/
  pOrder : ByteOrder
  /-- `RETRY_W`: the width of each retry counter. -/
  retryW : Nat
  /-- `PER_CLEAR_ON_RESET`. -/
  perClearOnReset : Bool
  /-- `IN_DEPTH`: capacity of the inbound buffer in bytes. -/
  inDepth : Nat
  /-- `OUT_DEPTH`: capacity of the outbound buffer in bytes. -/
  outDepth : Nat
  /-- `FillOK`: the predicate on the 4 fill bytes of one `receive` (R266). -/
  fillOk : DrawRule
  /-- `UnderflowOK`: the predicate on the upstream bytes drawn during one transfer (R266). -/
  underflowOk : DrawRule
  deriving DecidableEq, Repr

/-- The defaults of R14. The two depths are OPEN in the spec (at least 4): 8 is a DESIGN CHOICE, unsafe
(log entry 5). -/
def Params.default : Params :=
  { cOrder := .little, pOrder := .little, retryW := 8, perClearOnReset := true, inDepth := 8, outDepth := 8,
    fillOk := .anyBytes, underflowOk := .anyBytes }

/-- The limits the spec puts on the parameters (R14, D8, D19). -/
abbrev Params.Ok (p : Params) : Prop := 5 ≤ p.retryW ∧ 4 ≤ p.inDepth ∧ 4 ≤ p.outDepth

/-- `SENTINEL` (R13). -/
def Config.sentinel : Half := 0xC819#16

/-- `CMD_GET_IDENTITY` (R13). -/
def Config.cmdGetIdentity : Half := 0x0001#16

/-- `CMD_GET_UNIT` (R13). -/
def Config.cmdGetUnit : Half := 0x0002#16

/-- `CMD_GET_MEASUREMENT` (R13). -/
def Config.cmdGetMeasurement : Half := 0x0003#16

/-- `ID_CONST` (R13). -/
def Config.idConst : Half := 0x000A#16

/-- `UNIT_CONST` (R13). -/
def Config.unitConst : Half := 0x000B#16

/-- `C_MAX_RETRIES` (R13). -/
def Config.cMaxRetries : Nat := 5

/-- `P_MAX_RETRIES` (R13). -/
def Config.pMaxRetries : Nat := 25

/-- `NORM` (R13). -/
def Config.norm : Int := 100

/-- `PKT_BYTES` (R13). -/
def Config.pktBytes : Nat := 4

/-- Whose turn it is at a step whose number is given: a free value (R273, log entry 2). -/
opaque Config.freeAgent : Nat → Agent

/-- What the measurement source returns at a step: a free value (R272, U12, log entry 3). -/
opaque Config.freeSample : Nat → Half

/-- The fill byte the environment offers at a beat: a free value (R266, U1, log entry 3). -/
opaque Config.freeFill : Nat → Byte

/-- The underflow byte the environment offers at a beat: a free value (R266, U2, log entry 3). -/
opaque Config.freeUnderflow : Nat → Byte

end Sys2Proof
end

