-- ==== Sys2Proof/Syntax.lean ====
section
/-! DEFINITION. The instructions: one constructor for each of the 13 rows of the opcode table (R114). An instruction is
a packet as its receiver decodes it: five requests at the peripheral, eight responses at the controller. -/

namespace Sys2Proof

/-- The rows of the opcode table, with the table's field letters as operands. -/
inductive Instr where
  /-- `GET_IDENTITY` (R178). -/
  | getIdentity
  /-- `GET_UNIT` (R179). -/
  | getUnit
  /-- `GET_MEASUREMENT` (R180). -/
  | getMeasurement
  /-- `UNRECOGNIZED`: well framed, payload `c` none of the three commands (R181). -/
  | unrecognized (c : Half)
  /-- `NOISE`: header `h` not the sentinel, payload `p` not looked at (R177). -/
  | noise (h p : Half)
  /-- `RSP_IDENTITY`, phase DetectDevice (R137). -/
  | rspIdentity
  /-- `RSP_MISMATCH_DETECT`: well framed, payload `p` not the identity constant, phase DetectDevice (R137). -/
  | rspMismatchDetect (p : Half)
  /-- `RSP_NOISE_DETECT`: header `h` not the sentinel, phase DetectDevice (R136). -/
  | rspNoiseDetect (h p : Half)
  /-- `RSP_UNIT`, phase ReadUnit (R138). -/
  | rspUnit
  /-- `RSP_MISMATCH_UNIT`: well framed, payload `p` not the unit constant, phase ReadUnit (R138). -/
  | rspMismatchUnit (p : Half)
  /-- `RSP_NOISE_UNIT`: header `h` not the sentinel, phase ReadUnit (R136). -/
  | rspNoiseUnit (h p : Half)
  /-- `RSP_MEASUREMENT`: well framed, any payload `m`, phase ReadMeasurement (R139). -/
  | rspMeasurement (m : Half)
  /-- `RSP_NOISE_MEASUREMENT`: header `h` not the sentinel, phase ReadMeasurement (R136). -/
  | rspNoiseMeasurement (h p : Half)
  deriving DecidableEq, Repr

end Sys2Proof
end

