-- ==== Sys2Proof/WellFormed.lean ====
section
/-! DEFINITION. Which instructions a packet can decode to: the operand conditions that "first match wins" (R114) puts on
each row, and the context each row belongs to. -/

namespace Sys2Proof

/-- The context of the table in which an instruction's row applies (R114). -/
def Instr.context : Instr → Context
  | .getIdentity => .request
  | .getUnit => .request
  | .getMeasurement => .request
  | .unrecognized _ => .request
  | .noise _ _ => .request
  | .rspIdentity => .response .detectDevice
  | .rspMismatchDetect _ => .response .detectDevice
  | .rspNoiseDetect _ _ => .response .detectDevice
  | .rspUnit => .response .readUnit
  | .rspMismatchUnit _ => .response .readUnit
  | .rspNoiseUnit _ _ => .response .readUnit
  | .rspMeasurement _ => .response .readMeasurement
  | .rspNoiseMeasurement _ _ => .response .readMeasurement

/-- An instruction is well formed when its operands are ones its row leaves to it (R111, R112, R114): an unrecognized
command is none of the three, noise has another header, a mismatch another payload. -/
def Instr.wellFormed : Instr → Bool
  | .getIdentity => true
  | .getUnit => true
  | .getMeasurement => true
  | .unrecognized c =>
      c != Config.cmdGetIdentity && c != Config.cmdGetUnit && c != Config.cmdGetMeasurement
  | .noise h _ => h != Config.sentinel
  | .rspIdentity => true
  | .rspMismatchDetect p => p != Config.idConst
  | .rspNoiseDetect h _ => h != Config.sentinel
  | .rspUnit => true
  | .rspMismatchUnit p => p != Config.unitConst
  | .rspNoiseUnit h _ => h != Config.sentinel
  | .rspMeasurement _ => true
  | .rspNoiseMeasurement h _ => h != Config.sentinel

end Sys2Proof
end

