-- ==== Sys2Proof/Decode.lean ====
section
/-! DEFINITION. The packet framer: serialiser and deserialiser (R104, R105), the framing check (R106), the decoders of
requests (R108) and of responses (R110), the encoder, and the opcode table as data (R114). -/

namespace Sys2Proof

/-- The packet word `W = header ++ payload` (R18). -/
def Packet.word (p : Packet) : Word := p.header ++ p.payload

/-- The header of a packet word, `W[31:16]` (R101). -/
def headerOf (w : Word) : Half := w.extractLsb' 16 16

/-- The payload of a packet word, `W[15:0]` (R101). -/
def payloadOf (w : Word) : Half := w.extractLsb' 0 16

/-- A packet word by its two fields. -/
def packetOf (w : Word) : Packet := ⟨headerOf w, payloadOf w⟩

/-- Bits 7:0 of a field. -/
def lowByte (v : Half) : Byte := v.extractLsb' 0 8

/-- Bits 15:8 of a field. -/
def highByte (v : Half) : Byte := v.extractLsb' 8 8

/-- A field from its bytes, the more significant first. -/
def halfOf (hi lo : Byte) : Half := hi ++ lo

/-- `Ser` (R104): payload in bytes 0 and 1, header in bytes 2 and 3, each in the byte order given. -/
def ser (o : ByteOrder) (p : Packet) : Bytes4 :=
  match o with
  | .little => ⟨lowByte p.payload, highByte p.payload, lowByte p.header, highByte p.header⟩
  | .big => ⟨highByte p.payload, lowByte p.payload, highByte p.header, lowByte p.header⟩

/-- `Deser` (R105), total. -/
def deser (o : ByteOrder) (b : Bytes4) : Packet :=
  match o with
  | .little => ⟨halfOf b.b3 b.b2, halfOf b.b1 b.b0⟩
  | .big => ⟨halfOf b.b2 b.b3, halfOf b.b0 b.b1⟩

/-- The four bytes as a list, first on the wire first. -/
def Bytes4.toList (b : Bytes4) : List Byte := [b.b0, b.b1, b.b2, b.b3]

/-- The byte a transfer sends as its `i`-th (R265); there is none from the fifth on. -/
def Bytes4.byte? (b : Bytes4) (i : Nat) : Option Byte := b.toList[i]?

/-- Four bytes taken off the front of a list, and the rest (R77); `none` where fewer are there. -/
def takeBytes4 : List Byte → Option (Bytes4 × List Byte)
  | b0 :: b1 :: b2 :: b3 :: rest => some (⟨b0, b1, b2, b3⟩, rest)
  | _ => none

/-- `Framed` (R106): the header alone, against the sentinel. -/
def framed (w : Word) : Bool := headerOf w == Config.sentinel

/-- Decoding a request (R108): the header first, then the payload on all 16 bits. -/
def decodeRequestWord (w : Word) : Instr :=
  if framed w then
    if payloadOf w = Config.cmdGetIdentity then .getIdentity
    else if payloadOf w = Config.cmdGetUnit then .getUnit
    else if payloadOf w = Config.cmdGetMeasurement then .getMeasurement
    else .unrecognized (payloadOf w)
  else .noise (headerOf w) (payloadOf w)

/-- Decoding a response in the controller's phase (R110): the header first, then the payload as the phase asks. -/
def decodeResponseWord (ph : Phase) (w : Word) : Instr :=
  match ph with
  | .detectDevice =>
      if framed w then
        if payloadOf w = Config.idConst then .rspIdentity else .rspMismatchDetect (payloadOf w)
      else .rspNoiseDetect (headerOf w) (payloadOf w)
  | .readUnit =>
      if framed w then
        if payloadOf w = Config.unitConst then .rspUnit else .rspMismatchUnit (payloadOf w)
      else .rspNoiseUnit (headerOf w) (payloadOf w)
  | .readMeasurement =>
      if framed w then .rspMeasurement (payloadOf w)
      else .rspNoiseMeasurement (headerOf w) (payloadOf w)

/-- Decoding a packet word in a context: total on all 2^32 words (R114). -/
def decodeWord (ctx : Context) (w : Word) : Instr :=
  match ctx with
  | .request => decodeRequestWord w
  | .response ph => decodeResponseWord ph w

/-- Why bytes are no packet. Every four bytes are one (R105), so there is one reason: fewer than four. -/
inductive DecodeError where
  /-- Fewer than `PKT_BYTES` bytes, the number that is there (R76). -/
  | short (count : Nat)
  deriving DecidableEq, Repr

/-- Decoding a byte stream: the oldest four bytes are the packet (R77), the rest is returned. -/
def decode (ctx : Context) (o : ByteOrder) (bs : List Byte) : Except DecodeError (Instr × List Byte) :=
  match takeBytes4 bs with
  | some (b, rest) => .ok (decodeWord ctx (deser o b).word, rest)
  | none => .error (.short bs.length)

/-- The packet of an instruction, from the table's fields: the encoder (R107, R109, R111). -/
def encodePacket : Instr → Packet
  | .getIdentity => ⟨Config.sentinel, Config.cmdGetIdentity⟩
  | .getUnit => ⟨Config.sentinel, Config.cmdGetUnit⟩
  | .getMeasurement => ⟨Config.sentinel, Config.cmdGetMeasurement⟩
  | .unrecognized c => ⟨Config.sentinel, c⟩
  | .noise h p => ⟨h, p⟩
  | .rspIdentity => ⟨Config.sentinel, Config.idConst⟩
  | .rspMismatchDetect p => ⟨Config.sentinel, p⟩
  | .rspNoiseDetect h p => ⟨h, p⟩
  | .rspUnit => ⟨Config.sentinel, Config.unitConst⟩
  | .rspMismatchUnit p => ⟨Config.sentinel, p⟩
  | .rspNoiseUnit h p => ⟨h, p⟩
  | .rspMeasurement m => ⟨Config.sentinel, m⟩
  | .rspNoiseMeasurement h p => ⟨h, p⟩

/-- The packet word of an instruction. -/
def encode (i : Instr) : Word := (encodePacket i).word

/-- The wire bytes of an instruction. -/
def encodeBytes (o : ByteOrder) (i : Instr) : Bytes4 := ser o (encodePacket i)

/-- One row of the opcode table: a word `w` matches when `w &&& mask = pattern` (R114). -/
structure OpRow where
  mnemonic : String
  context : Context
  pattern : Word
  mask : Word
  deriving DecidableEq, Repr

/-- The rows the peripheral decodes requests with, in the order they are tried (R114). -/
def requestRows : List OpRow :=
  [ ⟨"GET_IDENTITY", .request, 0xC8190001#32, 0xFFFFFFFF#32⟩,
    ⟨"GET_UNIT", .request, 0xC8190002#32, 0xFFFFFFFF#32⟩,
    ⟨"GET_MEASUREMENT", .request, 0xC8190003#32, 0xFFFFFFFF#32⟩,
    ⟨"UNRECOGNIZED", .request, 0xC8190000#32, 0xFFFF0000#32⟩,
    ⟨"NOISE", .request, 0x00000000#32, 0x00000000#32⟩ ]

/-- The rows the controller decodes responses with, grouped by phase, in the order they are tried (R114). -/
def responseRows : List OpRow :=
  [ ⟨"RSP_IDENTITY", .response .detectDevice, 0xC819000A#32, 0xFFFFFFFF#32⟩,
    ⟨"RSP_MISMATCH_DETECT", .response .detectDevice, 0xC8190000#32, 0xFFFF0000#32⟩,
    ⟨"RSP_NOISE_DETECT", .response .detectDevice, 0x00000000#32, 0x00000000#32⟩,
    ⟨"RSP_UNIT", .response .readUnit, 0xC819000B#32, 0xFFFFFFFF#32⟩,
    ⟨"RSP_MISMATCH_UNIT", .response .readUnit, 0xC8190000#32, 0xFFFF0000#32⟩,
    ⟨"RSP_NOISE_UNIT", .response .readUnit, 0x00000000#32, 0x00000000#32⟩,
    ⟨"RSP_MEASUREMENT", .response .readMeasurement, 0xC8190000#32, 0xFFFF0000#32⟩,
    ⟨"RSP_NOISE_MEASUREMENT", .response .readMeasurement, 0x00000000#32, 0x00000000#32⟩ ]

/-- The opcode table, all 13 rows (R114). -/
def opcodeTable : List OpRow := requestRows ++ responseRows

/-- The first row of a context that a word matches: the decoder "written from the table alone" (R114). -/
def firstRow (ctx : Context) (w : Word) : Option OpRow :=
  opcodeTable.find? (fun r => r.context == ctx && (w &&& r.mask) == r.pattern)

/-- The mnemonic of an instruction's row, as the table spells it. -/
def Instr.mnemonic : Instr → String
  | .getIdentity => "GET_IDENTITY"
  | .getUnit => "GET_UNIT"
  | .getMeasurement => "GET_MEASUREMENT"
  | .unrecognized _ => "UNRECOGNIZED"
  | .noise _ _ => "NOISE"
  | .rspIdentity => "RSP_IDENTITY"
  | .rspMismatchDetect _ => "RSP_MISMATCH_DETECT"
  | .rspNoiseDetect _ _ => "RSP_NOISE_DETECT"
  | .rspUnit => "RSP_UNIT"
  | .rspMismatchUnit _ => "RSP_MISMATCH_UNIT"
  | .rspNoiseUnit _ _ => "RSP_NOISE_UNIT"
  | .rspMeasurement _ => "RSP_MEASUREMENT"
  | .rspNoiseMeasurement _ _ => "RSP_NOISE_MEASUREMENT"

/-- The packet word the host numbers: bits 31:0, the bits at and above `nbits` zero. -/
def tableWord (nbits w : Nat) : Word := BitVec.ofNat 32 (w % 2 ^ nbits)

/-- The context in which a bare word of the table is read. The bits alone do not say (R102, R110): the two words that
only a response row spells out whole are read as those responses, every other word as a request. DESIGN CHOICE, safe
(log entry 8). -/
def tableContext (w : Word) : Context :=
  if w = 0xC819000A#32 then .response .detectDevice
  else if w = 0xC819000B#32 then .response .readUnit
  else .request

/-- The instruction the decoder reads from a word of the opcode table: the word laid out as wire bytes, then decoded. -/
def decodeTableWord (nbits w : Nat) : Option Instr :=
  match decode (tableContext (tableWord nbits w)) .little (ser .little (packetOf (tableWord nbits w))).toList with
  | .ok (i, _) => some i
  | .error _ => none

end Sys2Proof
end

