-- ==== Sys2Proof/Machine/State.lean ====
section
/-! DEFINITION. The state of the composed system as plain data: the controller block, the peripheral block, the link
between them (rules R32 to R58, R261), the parameters the machine was built with (R14), and the inputs the environment
will supply (R20). Reset: rules R58, R331, R336. -/

namespace Sys2Proof.Machine

/-- `cstep`, the controller's sequencer register (R34). Ten values: codes 10 to 15 cannot be written down (U17). -/
inductive CStep where
  | build
  | select
  | send
  | settle
  | recv
  | deselect
  | validate
  | post
  | reset
  | sleep
  deriving DecidableEq, Repr

/-- `pstep`, the peripheral's sequencer register (R42). Thirteen values: codes 13 to 15 cannot be written down. -/
inductive PStep where
  | initIn
  | initOut
  | checkOut
  | checkIn
  | recv
  | disableIn
  | validate
  | sample
  | send
  | reset
  | enableOut
  | enableIn
  | sleep
  deriving DecidableEq, Repr

/-- The controller transfer in flight (R261, R262): `send b i` has done `i` beats, `recv acc` as many as `acc` has
bytes (the spec's `Recv(acc, i)`, whose `i` is the length of `acc`). -/
inductive Xfer where
  | idle
  | send (b : Bytes4) (i : Nat)
  | recv (acc : List Byte)
  deriving DecidableEq, Repr

/-- The events of rule R293. -/
inductive Event where
  /-- `E_FRAME(h)`: a received header is not the sentinel. Both roles. -/
  | eFrame (h : Half)
  /-- `E_SEMANTIC(p)`: a well-framed response with a payload its phase does not expect. Controller. -/
  | eSemantic (p : Half)
  /-- `E_UNKNOWN_CMD(p)`: a well-framed request that is none of the commands. Peripheral. -/
  | eUnknownCmd (p : Half)
  /-- `E_BUDGET`: the role's retry count exceeds its threshold. Both roles. -/
  | eBudget
  /-- `Reading(whole, frac)`: a decoded measurement. Controller. -/
  | reading (whole : Int) (frac : Nat)
  deriving DecidableEq, Repr

/-- One event as the event port carries it: `ev_code` and `ev_info` (R52, R53, R293). -/
structure EvRecord where
  code : BitVec 3
  info : Half
  deriving DecidableEq, Repr

/-- The event output of a role (R51, R293): what the port presents after the role's last step, in order (`ev_valid` is
"the list is not empty"), and every event the role has emitted since reset, oldest first (the observation of a run,
R273; no rule reads it back). -/
structure EvOut where
  port : List EvRecord
  log : List Event
  deriving DecidableEq, Repr

/-- The controller block (R32 to R37, R51, R52). -/
structure Ctrl where
  /-- The input pin `rst_n` of the block: false holds it in reset (R52, R331). -/
  rstN : Bool
  /-- `phase` (R32). -/
  phase : Phase
  /-- `c_retry`, an unsigned count of `RETRY_W` bits (R33). -/
  cRetry : Nat
  /-- `cstep` (R34). -/
  cstep : CStep
  /-- `c_txp`, the packet word being sent (R35). -/
  cTxp : Word
  /-- `c_rxp`, the packet word just received (R35). -/
  cRxp : Word
  /-- `rd_whole`, signed (R36). -/
  rdWhole : BitVec 16
  /-- `rd_frac`, unsigned (R36). -/
  rdFrac : BitVec 7
  /-- `rd_valid`, a pulse of one step (R36). -/
  rdValid : Bool
  /-- `sel`, the last select the controller issued (R37). -/
  sel : Bool
  /-- The event output (R51). -/
  out : EvOut
  deriving DecidableEq, Repr

/-- The peripheral block (R41 to R44, R51, R53). -/
structure Per where
  /-- The input pin `rst_n` of the block: false holds it in reset (R53, R331). -/
  rstN : Bool
  /-- `p_retry`, an unsigned count of `RETRY_W` bits (R41). -/
  pRetry : Nat
  /-- `pstep` (R42). -/
  pstep : PStep
  /-- `p_req`, the packet word taken from the inbound buffer (R43). -/
  pReq : Word
  /-- `p_rsp`, the packet word of the reply (R43). -/
  pRsp : Word
  /-- `p_smp`, the sample, signed (R43). -/
  pSmp : BitVec 16
  /-- `p_ocnt`, the last outbound count (R44). -/
  pOcnt : Nat
  /-- `p_icnt`, the last inbound count (R44). -/
  pIcnt : Nat
  /-- The event output (R51). -/
  out : EvOut
  deriving DecidableEq, Repr

/-- The link state (R261): the peripheral transport's buffers and enables, and the wire. -/
structure Link where
  /-- `in_fifo`, oldest first. -/
  inFifo : List Byte
  /-- `out_fifo`, oldest first. -/
  outFifo : List Byte
  /-- `in_en`. -/
  inEn : Bool
  /-- `out_en`. -/
  outEn : Bool
  /-- `sel_w`, select on the wire. -/
  selW : Bool
  /-- `xfer`, the controller transfer in flight. -/
  xfer : Xfer
  /-- `overrun`, sticky. -/
  overrun : Bool
  deriving DecidableEq, Repr

/-- The fill or the underflow bytes drawn since reset, oldest first: those of the transfers before, and those of the
latest transfer, which the configured predicate speaks of (R266). The model's own record (log entry 3). -/
structure Draws where
  past : List Byte
  now : List Byte
  deriving DecidableEq, Repr

/-- What the environment will supply, first things first (R20, R260, R266, R272): whose turn each
step is, the samples, the fill and the underflow bytes. The lists are the model's own, and every statement holds for
all of them; where one has run out, the value is a free value of `Config` applied to `tick`, the number of the step (log entries
2, 3). -/
structure Inputs where
  tick : Nat
  sched : List Agent
  samples : List (BitVec 16)
  fills : List Byte
  underflows : List Byte
  fillsDrawn : Draws
  underflowsDrawn : Draws
  deriving DecidableEq, Repr

/-- The whole state. -/
structure State where
  params : Params
  ctrl : Ctrl
  per : Per
  link : Link
  inputs : Inputs
  deriving DecidableEq, Repr

/-- Why a run stops as faulted. -/
inductive Fault where
  /-- A byte has arrived at a full inbound buffer, so `overrun` is set and "the spec says nothing more about" the run
  (R267, U3). Raised by `runStep`, at every step after the one that set the flag; safe. -/
  | inboundOverrun
  deriving DecidableEq, Repr

/-- Why a step is refused. -/
inductive Refusal where
  /-- An instruction whose arm of `exec` has no meaning yet, by its mnemonic. No arm raises it; safe. -/
  | notModelled (mnemonic : String)
  /-- A response row met in another phase than its `context`. The decoder selects the rows of the current phase
  (R114), so no step raises it: in that phase the same bits are another row. Raised by the meanings of the response
  rows; safe. -/
  | outOfContext
  /-- `receive(4)` with fewer than 4 bytes pending: a contract violation "the block never commits" (R216, U9). Raised
  by the step `P_RECV`; safe. -/
  | receiveShort
  /-- The peripheral's `send` with outbound buffering off or no room for 4 bytes: a contract violation (R215, R268,
  U9). Raised by the step `P_SEND`; safe. -/
  | sendNotReady
  /-- `rst_n` of the controller is low while a transfer is in flight: the state of the abandoned transaction is outside
  the spec (R331, U10). Raised by `runStep`; safe. -/
  | abandonedTransaction
  deriving DecidableEq, Repr

/-- The controller block at reset (R58, R331). `c_txp`, `c_rxp`, `rd_whole`, `rd_frac` have no reset value in the spec:
zero is a DESIGN CHOICE, unsafe (log entry 1). -/
def Ctrl.atReset : Ctrl :=
  { rstN := true, phase := .detectDevice, cRetry := 0, cstep := .build, cTxp := 0#32, cRxp := 0#32,
    rdWhole := 0#16, rdFrac := 0#7, rdValid := false, sel := false, out := ⟨[], []⟩ }

/-- The peripheral block at reset (R58, R331). `p_req`, `p_rsp`, `p_smp`, `p_ocnt`, `p_icnt` have no reset value in the
spec: zero is a DESIGN CHOICE, unsafe (log entry 1). -/
def Per.atReset : Per :=
  { rstN := true, pRetry := 0, pstep := .initIn, pReq := 0#32, pRsp := 0#32, pSmp := 0#16, pOcnt := 0, pIcnt := 0,
    out := ⟨[], []⟩ }

/-- The link at reset (R261, R336). -/
def Link.atReset : Link :=
  { inFifo := [], outFifo := [], inEn := false, outEn := false, selW := false, xfer := .idle, overrun := false }

/-- No input has been supplied or drawn yet: every choice and draw is a free value. DESIGN CHOICE, safe (log entries
2, 3). -/
def Inputs.atReset : Inputs :=
  { tick := 0, sched := [], samples := [], fills := [], underflows := [], fillsDrawn := ⟨[], []⟩,
    underflowsDrawn := ⟨[], []⟩ }

/-- The machine right after reset (R336), both blocks released from reset. -/
def State.reset : State :=
  { params := Params.default, ctrl := Ctrl.atReset, per := Per.atReset, link := Link.atReset,
    inputs := Inputs.atReset }

end Sys2Proof.Machine
end

