-- ==== Sys2Proof/Machine/Draws.lean ====
section
/-! DEFINITION. Drawing a fill or underflow byte under the configured predicate (R14, R266): which bytes a rule allows,
and the byte that is driven. -/

namespace Sys2Proof

/-- The place of a pattern's masks and values, byte by byte. -/
def BytePattern.cells (p : BytePattern) : List (Byte × Byte) := p.mask.toList.zip p.value.toList

/-- A byte agrees with a cell where the mask has a one. -/
def cellFits (cell : Byte × Byte) (b : Byte) : Bool := b &&& cell.1 == cell.2 &&& cell.1

/-- The bytes drawn so far fit the pattern, place by place. -/
def BytePattern.fits (p : BytePattern) (drawn : List Byte) : Bool :=
  (p.cells.zip drawn).all fun x => cellFits x.1 x.2

/-- A byte brought into the pattern at a place: the bits of the mask are the pattern's, the others its own. -/
def BytePattern.force (p : BytePattern) (place : Nat) (b : Byte) : Byte :=
  match p.cells[place]? with
  | some cell => (b &&& ~~~cell.1) ||| (cell.2 &&& cell.1)
  | none => b

/-- The predicate: of four bytes, that they fit one of the patterns; of fewer, that four bytes it holds of begin so. -/
def DrawRule.allows (r : DrawRule) (drawn : List Byte) : Bool := (r.first :: r.others).any fun p => p.fits drawn

/-- The byte drawn after `drawn`, where the environment offers `b`: `b` itself where the rule allows it, and else `b`
brought into a pattern that the bytes before fit. -/
def DrawRule.draw (r : DrawRule) (drawn : List Byte) (b : Byte) : Byte :=
  if r.allows (drawn ++ [b]) then b
  else
    match (r.first :: r.others).find? fun p => p.fits drawn with
    | some p => p.force drawn.length b
    | none => b

/-- The first beat of a transfer begins a new group of draws (R266: "during one transfer"). -/
def Machine.Draws.starting (first : Bool) (d : Machine.Draws) : Machine.Draws :=
  if first then { past := d.past ++ d.now, now := [] } else d

/-- One more byte has been drawn. -/
def Machine.Draws.took (b : Byte) (d : Machine.Draws) : Machine.Draws := { d with now := d.now ++ [b] }

/-- Every byte drawn since reset, oldest first. -/
def Machine.Draws.all (d : Machine.Draws) : List Byte := d.past ++ d.now

end Sys2Proof
end

