-- ==== Sys2Proof/Machine/Operands.lean ====
section
/-! DEFINITION. The operands of the steps: the command of a phase (R131), the words of requests and replies (R107, R109),
the reading of a payload as a number (R17, R103), and the measurement decode (R251). -/

namespace Sys2Proof.Machine

/-- `CmdFor` (R131). -/
def cmdFor : Phase → Half
  | .detectDevice => Config.cmdGetIdentity
  | .readUnit => Config.cmdGetUnit
  | .readMeasurement => Config.cmdGetMeasurement

/-- A well-framed packet word with a payload: `0xC819 ++ payload`. -/
def framedWord (payload : Half) : Word := (Packet.mk Config.sentinel payload).word

/-- The request the controller builds in a phase (R131). -/
def requestWord (ph : Phase) : Word := framedWord (cmdFor ph)

/-- `asSigned16` (R17): a payload is a signed 16-bit integer in both roles (R103). -/
def asSigned16 (v : Half) : Int := v.toInt

/-- `tdiv` (R17): signed division, quotient truncated toward zero. -/
def tdiv (a b : Int) : Int := Int.tdiv a b

/-- `trem` (R17): `a - b * tdiv(a, b)`. -/
def trem (a b : Int) : Int := a - b * tdiv a b

/-- The whole part of `Decode` (R251). -/
def decodeWhole (m : Int) : Int := tdiv m Config.norm

/-- The fractional part of `Decode` (R251): the absolute value of the remainder. -/
def decodeFrac (m : Int) : Nat := (trem m Config.norm).natAbs

/-- The phase after a success (R137, R138, R139): the strict forward chain; nothing follows ReadMeasurement. -/
def nextPhase : Phase → Phase
  | .detectDevice => .readUnit
  | .readUnit => .readMeasurement
  | .readMeasurement => .readMeasurement

end Sys2Proof.Machine
end

