-- ==== Sys2Proof/Machine/Flags.lean ====
section
/-! DEFINITION. The named conditions of rules R38 and R45. There are no architectural flags: these are functions of the
packet registers and the phase, and no state holds them. Beside them, the two threshold conditions (R141, R177). -/

namespace Sys2Proof.Machine

/-- `c_hdr_ok` (R38). -/
def Ctrl.hdrOk (c : Ctrl) : Bool := framed c.cRxp

/-- `c_pay_ok` (R38): what the payload is compared with depends on the phase; ReadMeasurement takes every payload. -/
def Ctrl.payOk (c : Ctrl) : Bool :=
  match c.phase with
  | .detectDevice => payloadOf c.cRxp == Config.idConst
  | .readUnit => payloadOf c.cRxp == Config.unitConst
  | .readMeasurement => true

/-- `p_hdr_ok` (R45). -/
def Per.hdrOk (p : Per) : Bool := framed p.pReq

/-- `p_cmd` (R45). -/
def Per.cmd (p : Per) : Half := payloadOf p.pReq

/-- `p_known` (R45). -/
def Per.known (p : Per) : Bool :=
  p.cmd == Config.cmdGetIdentity || p.cmd == Config.cmdGetUnit || p.cmd == Config.cmdGetMeasurement

/-- The controller's threshold, strict (R141). -/
def cSpent (count : Nat) : Bool := decide (Config.cMaxRetries < count)

/-- The peripheral's threshold, strict (R177). -/
def pSpent (count : Nat) : Bool := decide (Config.pMaxRetries < count)

end Sys2Proof.Machine
end

