-- ==== Sys2Proof/Machine/Ops.lean ====
section
/-! DEFINITION. The named operations the steps are made of: the retry counter (R257), raising an error or emitting an
event (R19, R293, R302), the transport's operations on the link (R263 to R270), and the environment's inputs. -/

namespace Sys2Proof.Machine

/-- `sat_inc_W` (R17, R257). -/
def satInc (w count : Nat) : Nat := if count < 2 ^ w - 1 then count + 1 else count

/-- `ev_code` (R291, R293). -/
def Event.code : Event → BitVec 3
  | .eFrame _ => 0#3
  | .eSemantic _ => 1#3
  | .eUnknownCmd _ => 2#3
  | .eBudget => 3#3
  | .reading _ _ => 4#3

/-- `ev_info` (R293); for a reading it is the raw payload, which is not an argument of the event. -/
def Event.info (raw : Half) : Event → Half
  | .eFrame h => h
  | .eSemantic p => p
  | .eUnknownCmd p => p
  | .eBudget => 0#16
  | .reading _ _ => raw

/-- The record of an event on the port. -/
def Event.record (raw : Half) (e : Event) : EvRecord := ⟨e.code, e.info raw⟩

/-- A step begins: events of the step before are no longer presented (R51: "presented for one step"). -/
def EvOut.clear (o : EvOut) : EvOut := { o with port := [] }

/-- RAISING: the one operation behind every `raise` and `emit` of the rules (R19, R20, R293, R302). The event goes to
the role's output and to nothing else: no state is saved, no mode is left and no control is diverted, so there is no
return from it either (R304). `raw` is the payload a reading is presented with. -/
def EvOut.raise (raw : Half) (e : Event) (o : EvOut) : EvOut :=
  { port := o.port ++ [e.record raw], log := o.log ++ [e] }

/-- The controller begins a step: the one-step outputs `ev_valid` and `rd_valid` fall (R36, R51). -/
def Ctrl.begin (c : Ctrl) : Ctrl := { c with rdValid := false, out := c.out.clear }

/-- The controller's sequencer goes on. -/
def Ctrl.goto (n : CStep) (c : Ctrl) : Ctrl := { c with cstep := n }

/-- A counted failure at the controller: the event, and the count plus one (R136, R137, R138, R290: a semantic mismatch
is "counted identically"). -/
def Ctrl.countFailure (retryW : Nat) (e : Event) (c : Ctrl) : Ctrl :=
  { c with cRetry := satInc retryW c.cRetry, out := c.out.raise 0#16 e }

/-- A success at the controller: the phase reached, and the count back to zero (R137, R138, R139). -/
def Ctrl.succeed (ph : Phase) (c : Ctrl) : Ctrl := { c with phase := ph, cRetry := 0 }

/-- The reading output (R139): the two parts to the registers, the pulse, and the event. -/
def Ctrl.emitReading (m : Half) (c : Ctrl) : Ctrl :=
  { c with
    rdWhole := BitVec.ofInt 16 (decodeWhole (asSigned16 m))
    rdFrac := BitVec.ofNat 7 (decodeFrac (asSigned16 m))
    rdValid := true
    out := c.out.raise m (.reading (decodeWhole (asSigned16 m)) (decodeFrac (asSigned16 m))) }

/-- The controller's `E_BUDGET` (R141, R297): back to the first phase with the count at zero. -/
def Ctrl.recover (c : Ctrl) : Ctrl :=
  { c with phase := .detectDevice, cRetry := 0, out := c.out.raise 0#16 .eBudget }

/-- The peripheral begins a step: `ev_valid` falls (R51). -/
def Per.begin (p : Per) : Per := { p with out := p.out.clear }

/-- The peripheral's sequencer goes on. -/
def Per.goto (n : PStep) (p : Per) : Per := { p with pstep := n }

/-- A well-framed request: the count goes to zero before anything is dispatched (R176). -/
def Per.acceptFrame (p : Per) : Per := { p with pRetry := 0 }

/-- A reply is built (R178, R179, R180); every reply has the sentinel (R109). -/
def Per.reply (payload : Half) (p : Per) : Per := { p with pRsp := framedWord payload }

/-- The peripheral raises an error (R177, R181). -/
def Per.raise (e : Event) (p : Per) : Per := { p with out := p.out.raise 0#16 e }

/-- A badly framed request at the peripheral (R177): `E_FRAME`, the count plus one, and, when that count exceeds the
threshold, `E_BUDGET`, the count cleared if the parameter says so, and the recovery steps. -/
def Per.countNoise (retryW : Nat) (clear : Bool) (h : Half) (p : Per) : Per :=
  if pSpent (satInc retryW p.pRetry) then
    (({ p with pRetry := if clear then 0 else satInc retryW p.pRetry }.raise (.eFrame h)).raise .eBudget).goto .reset
  else ({ p with pRetry := satInc retryW p.pRetry }.raise (.eFrame h)).goto .enableIn

/-- `T.select(active)` (R263): the wire's select, and nothing else (R271). -/
def Link.select (active : Bool) (l : Link) : Link := { l with selW := active }

/-- The controller's `T.send(b)` is issued (R263). -/
def Link.issueSend (b : Bytes4) (l : Link) : Link := { l with xfer := .send b 0 }

/-- The controller's `T.receive(4)` is issued (R264). -/
def Link.issueRecv (l : Link) : Link := { l with xfer := .recv [] }

/-- The transfer in flight completes (R263, R264). -/
def Link.finish (l : Link) : Link := { l with xfer := .idle }

/-- The controller's `T.reset()` (R221, R264): no change of the link state. -/
def Link.resetController (l : Link) : Link := l

/-- `T.outbound_pending()` (R218, R268). -/
def Link.outboundPending (l : Link) : Nat := l.outFifo.length

/-- `T.inbound_pending()` (R217, R268). -/
def Link.inboundPending (l : Link) : Nat := l.inFifo.length

/-- The peripheral's `T.receive(4)` (R216, R268): the four oldest bytes, removed; `none` where it is not enabled. -/
def Link.receive (l : Link) : Option (Bytes4 × Link) :=
  match takeBytes4 l.inFifo with
  | some (b, rest) => some (b, { l with inFifo := rest })
  | none => none

/-- Whether the peripheral's `T.send` is enabled (R268). -/
def Link.canSend (outDepth : Nat) (l : Link) : Bool :=
  l.outEn && decide (l.outFifo.length + Config.pktBytes ≤ outDepth)

/-- The peripheral's `T.send(b)` (R215, R268): the four bytes behind those queued. -/
def Link.queue (b : Bytes4) (l : Link) : Link := { l with outFifo := l.outFifo ++ b.toList }

/-- `T.enable_inbound()` (R222, R269). -/
def Link.enableInbound (l : Link) : Link := { l with inEn := true }

/-- `T.disable_inbound()` (R223, R269). -/
def Link.disableInbound (l : Link) : Link := { l with inEn := false }

/-- `T.enable_outbound()` (R225, R269). -/
def Link.enableOutbound (l : Link) : Link := { l with outEn := true }

/-- The peripheral's `T.reset()` (R270): both buffers emptied, outbound buffering off, nothing else touched. -/
def Link.resetPeripheral (l : Link) : Link := { l with inFifo := [], outFifo := [], outEn := false }

/-- The agent that moves at this step: the next of the schedule, a free value where none is listed (R273). -/
def Inputs.turn (n : Inputs) : Agent := n.sched.headD (Config.freeAgent n.tick)

/-- The step is taken: its number goes up and its entry of the schedule is used. -/
def Inputs.advance (n : Inputs) : Inputs := { n with tick := n.tick + 1, sched := n.sched.tail }

/-- What `M.sample()` returns now (R227, R272). -/
def Inputs.sample (n : Inputs) : BitVec 16 := n.samples.headD (Config.freeSample n.tick)

/-- A sample has been taken. -/
def Inputs.dropSample (n : Inputs) : Inputs := { n with samples := n.samples.tail }

/-- A beat begins; the first one of a transfer begins its groups of draws (R266). -/
def Inputs.beginBeat (first : Bool) (n : Inputs) : Inputs :=
  { n with fillsDrawn := n.fillsDrawn.starting first, underflowsDrawn := n.underflowsDrawn.starting first }

/-- The fill byte of this beat: the environment's, within `FillOK` (R266). -/
def Inputs.fill (ok : DrawRule) (n : Inputs) : Byte :=
  ok.draw n.fillsDrawn.now (n.fills.headD (Config.freeFill n.tick))

/-- The fill byte `b` has been driven. -/
def Inputs.dropFill (b : Byte) (n : Inputs) : Inputs :=
  { n with fills := n.fills.tail, fillsDrawn := n.fillsDrawn.took b }

/-- The underflow byte of this beat: the environment's, within `UnderflowOK` (R266). -/
def Inputs.underflow (ok : DrawRule) (n : Inputs) : Byte :=
  ok.draw n.underflowsDrawn.now (n.underflows.headD (Config.freeUnderflow n.tick))

/-- The underflow byte `b` has been driven. -/
def Inputs.dropUnderflow (b : Byte) (n : Inputs) : Inputs :=
  { n with underflows := n.underflows.tail, underflowsDrawn := n.underflowsDrawn.took b }

/-- The draws of the latest transfer lie within the two predicates (R266). -/
def Inputs.drawsAllowed (p : Params) (n : Inputs) : Bool :=
  p.fillOk.allows n.fillsDrawn.now && p.underflowOk.allows n.underflowsDrawn.now

/-- The state with the inputs of this step taken as used. -/
def State.advance (s : State) : State := { s with inputs := s.inputs.advance }

end Sys2Proof.Machine
end

