-- ==== Sys2Proof/Machine/Beat.lean ====
section
/-! DEFINITION. The beat, the one step of the wire (R265 to R267): one byte each way at once. -/

namespace Sys2Proof.Machine

/-- The upstream half of a beat: the head of the outbound buffer, or an underflow draw (R265). It answers the byte, the
link without it, and the inputs left. -/
def upstream (ok : DrawRule) (l : Link) (n : Inputs) : Byte × Link × Inputs :=
  if l.outEn then
    match l.outFifo with
    | u :: rest => (u, { l with outFifo := rest }, n)
    | [] => (n.underflow ok, l, n.dropUnderflow (n.underflow ok))
  else (n.underflow ok, l, n.dropUnderflow (n.underflow ok))

/-- The peripheral's transport takes the downstream byte: appended where buffering is enabled and there is room, the
sticky flag where there is none, lost where buffering is disabled (R265, R267). -/
def Link.take (inDepth : Nat) (d : Byte) (l : Link) : Link :=
  if l.inEn then
    if l.inFifo.length < inDepth then { l with inFifo := l.inFifo ++ [d] } else { l with overrun := true }
  else l

/-- The downstream byte and the kind of transfer a beat carries on, where a beat is enabled (R265): `send` drives its
`i`-th byte and discards what comes up, `recv` drives a fill byte and keeps it. -/
inductive BeatKind where
  | sending (b : Bytes4) (i : Nat) (d : Byte)
  | receiving (acc : List Byte)
  deriving DecidableEq, Repr

/-- When a beat is enabled, and which it is (R265). -/
def Link.beatKind (l : Link) : Option BeatKind :=
  if l.selW then
    match l.xfer with
    | .idle => none
    | .send b i => (b.byte? i).map (fun d => .sending b i d)
    | .recv acc => if acc.length < Config.pktBytes then some (.receiving acc) else none
  else none

/-- The first beat of its transfer. -/
def BeatKind.first : BeatKind → Bool
  | .sending _ i _ => i == 0
  | .receiving acc => acc.isEmpty

/-- One beat of a given kind on the link and the inputs (R265), once the beat has begun. -/
def beatOn (p : Params) (k : BeatKind) (l : Link) (n : Inputs) : Link × Inputs :=
  match k with
  | .sending b i d =>
      let (_, l', n') := upstream p.underflowOk l n
      ({ l'.take p.inDepth d with xfer := .send b (i + 1) }, n')
  | .receiving acc =>
      let (u, l', n') := upstream p.underflowOk l n
      ({ l'.take p.inDepth (n.fill p.fillOk) with xfer := .recv (acc ++ [u]) }, n'.dropFill (n.fill p.fillOk))

end Sys2Proof.Machine
end

