-- ==== Sys2Proof/Machine/Controller.lean ====
section
/-! DEFINITION. The micro-steps of the controller block other than `C_VALIDATE` (R131 to R135, R140 to R143): what each
does to the block when its transaction is complete. What the transactions do to the link is in Ops.lean and Agents.lean. -/

namespace Sys2Proof.Machine

/-- `C_BUILD` (R131). -/
def Ctrl.build (c : Ctrl) : Ctrl := { c.begin with cTxp := requestWord c.phase, cstep := .select }

/-- `C_SELECT` (R132). -/
def Ctrl.selected (c : Ctrl) : Ctrl := { c.begin with sel := true, cstep := .send }

/-- `C_SEND`, once the four bytes are out (R133). -/
def Ctrl.sent (c : Ctrl) : Ctrl := c.begin.goto .settle

/-- `C_SETTLE`, once `T_SETTLE` has elapsed (R134). -/
def Ctrl.settled (c : Ctrl) : Ctrl := c.begin.goto .recv

/-- `C_RECV`, once the four bytes are in (R135): all of `c_rxp` is overwritten. -/
def Ctrl.received (o : ByteOrder) (b : Bytes4) (c : Ctrl) : Ctrl :=
  { c.begin with cRxp := (deser o b).word, cstep := .deselect }

/-- `C_DESELECT` (R140). -/
def Ctrl.deselected (c : Ctrl) : Ctrl := { c.begin with sel := false, cstep := .validate }

/-- `C_POST` (R141): the threshold check. -/
def Ctrl.posted (c : Ctrl) : Ctrl :=
  if cSpent c.cRetry then c.begin.recover.goto .reset else c.begin.goto .sleep

/-- `C_RESET`, once the transport has been reset (R142). -/
def Ctrl.wasReset (c : Ctrl) : Ctrl := c.begin.goto .sleep

/-- `C_SLEEP`, once `T_CYCLE` has elapsed (R143). -/
def Ctrl.slept (c : Ctrl) : Ctrl := c.begin.goto .build

/-- The block while `rst_n` is low (R331): every register at its reset value. What its event sink has recorded is not
the block's and stays. -/
def Ctrl.heldInReset (c : Ctrl) : Ctrl := { Ctrl.atReset with rstN := false, out := c.out.clear }

/-- The platform drives `rst_n` to a level: low resets the block at once, high lets it go on from where it is (R331). -/
def Ctrl.setPin (level : Bool) (c : Ctrl) : Ctrl := if level then { c with rstN := true } else c.heldInReset

/-- The four bytes `Ser(c_txp)` that `C_SEND` sends (R133). -/
def Ctrl.txBytes (o : ByteOrder) (c : Ctrl) : Bytes4 := ser o (packetOf c.cTxp)

end Sys2Proof.Machine
end

