-- ==== Sys2Proof/Machine/Requests.lean ====
section
/-! DEFINITION. The requests: what the peripheral does at `P_VALIDATE` with each packet it can take (R176 to R181). Each
meaning is one step of the peripheral block; the steps it leads to (`P_SAMPLE`, `P_SEND`, `P_RESET`, ...) are in
Peripheral.lean. No meaning stops. -/

namespace Sys2Proof.Machine

/-- A step of the peripheral block that changes nothing but the block. -/
def State.perStep (f : Per → Per) (s : State) : Host.Outcome State Fault Refusal :=
  .next { s with per := f s.per.begin }

/-- `GET_IDENTITY` (R176, R178). -/
def execGetIdentity (s : State) : Host.Outcome State Fault Refusal :=
  s.perStep fun p => (p.acceptFrame.reply Config.idConst).goto .send

/-- `GET_UNIT` (R176, R179). -/
def execGetUnit (s : State) : Host.Outcome State Fault Refusal :=
  s.perStep fun p => (p.acceptFrame.reply Config.unitConst).goto .send

/-- `GET_MEASUREMENT` (R176, R180): the dispatch; the sample is taken at `P_SAMPLE`. -/
def execGetMeasurement (s : State) : Host.Outcome State Fault Refusal :=
  s.perStep fun p => p.acceptFrame.goto .sample

/-- `UNRECOGNIZED` (R176, R181): logged only. -/
def execUnrecognized (c : Half) (s : State) : Host.Outcome State Fault Refusal :=
  s.perStep fun p => (p.acceptFrame.raise (.eUnknownCmd c)).goto .enableIn

/-- `NOISE` (R177): counted, not answered; the payload is not looked at. -/
def execNoise (h _p : Half) (s : State) : Host.Outcome State Fault Refusal :=
  s.perStep fun p => p.countNoise s.params.retryW s.params.perClearOnReset h

end Sys2Proof.Machine
end

