-- ==== Sys2Proof/Machine/Responses.lean ====
section
/-! DEFINITION. The responses: what the controller does at `C_VALIDATE` with each packet it can receive, by phase (R136
to R139). A row applies in the phase its `context` names (R114) and is refused by name in another, where the decoder
never gives it. -/

namespace Sys2Proof.Machine

/-- A step of the controller block that changes nothing but the block. -/
def State.ctrlStep (f : Ctrl → Ctrl) (s : State) : Host.Outcome State Fault Refusal :=
  .next { s with ctrl := f s.ctrl.begin }

/-- The step `C_VALIDATE` for a row of phase `ph`: it ends with `cstep <- C_POST`. -/
def State.judge (ph : Phase) (f : Ctrl → Ctrl) (s : State) : Host.Outcome State Fault Refusal :=
  if s.ctrl.phase = ph then s.ctrlStep fun c => (f c).goto .post else .refused .outOfContext

/-- `RSP_IDENTITY` (R137). -/
def execRspIdentity (s : State) : Host.Outcome State Fault Refusal :=
  s.judge .detectDevice fun c => c.succeed .readUnit

/-- `RSP_MISMATCH_DETECT` (R137). -/
def execRspMismatchDetect (p : Half) (s : State) : Host.Outcome State Fault Refusal :=
  s.judge .detectDevice fun c => c.countFailure s.params.retryW (.eSemantic p)

/-- `RSP_NOISE_DETECT` (R136): the payload is not looked at. -/
def execRspNoiseDetect (h _p : Half) (s : State) : Host.Outcome State Fault Refusal :=
  s.judge .detectDevice fun c => c.countFailure s.params.retryW (.eFrame h)

/-- `RSP_UNIT` (R138). -/
def execRspUnit (s : State) : Host.Outcome State Fault Refusal :=
  s.judge .readUnit fun c => c.succeed .readMeasurement

/-- `RSP_MISMATCH_UNIT` (R138). -/
def execRspMismatchUnit (p : Half) (s : State) : Host.Outcome State Fault Refusal :=
  s.judge .readUnit fun c => c.countFailure s.params.retryW (.eSemantic p)

/-- `RSP_NOISE_UNIT` (R136). -/
def execRspNoiseUnit (h _p : Half) (s : State) : Host.Outcome State Fault Refusal :=
  s.judge .readUnit fun c => c.countFailure s.params.retryW (.eFrame h)

/-- `RSP_MEASUREMENT` (R139): always a success; the phase stays. -/
def execRspMeasurement (m : Half) (s : State) : Host.Outcome State Fault Refusal :=
  s.judge .readMeasurement fun c => (c.succeed .readMeasurement).emitReading m

/-- `RSP_NOISE_MEASUREMENT` (R136): no reading is emitted. -/
def execRspNoiseMeasurement (h _p : Half) (s : State) : Host.Outcome State Fault Refusal :=
  s.judge .readMeasurement fun c => c.countFailure s.params.retryW (.eFrame h)

end Sys2Proof.Machine
end

