-- ==== Sys2Proof/Machine/Dispatch.lean ====
section
/-! DEFINITION. What each instruction does: one arm for each row of the opcode table. -/

namespace Sys2Proof.Machine

def exec (i : Instr) (s : State) : Host.Outcome State Fault Refusal :=
  match i with
  | .getIdentity => Sys2Proof.Machine.execGetIdentity s
  | .getUnit => Sys2Proof.Machine.execGetUnit s
  | .getMeasurement => Sys2Proof.Machine.execGetMeasurement s
  | .unrecognized c => Sys2Proof.Machine.execUnrecognized c s
  | .noise h p => Sys2Proof.Machine.execNoise h p s
  | .rspIdentity => Sys2Proof.Machine.execRspIdentity s
  | .rspMismatchDetect p => Sys2Proof.Machine.execRspMismatchDetect p s
  | .rspNoiseDetect h p => Sys2Proof.Machine.execRspNoiseDetect h p s
  | .rspUnit => Sys2Proof.Machine.execRspUnit s
  | .rspMismatchUnit p => Sys2Proof.Machine.execRspMismatchUnit p s
  | .rspNoiseUnit h p => Sys2Proof.Machine.execRspNoiseUnit h p s
  | .rspMeasurement m => Sys2Proof.Machine.execRspMeasurement m s
  | .rspNoiseMeasurement h p => Sys2Proof.Machine.execRspNoiseMeasurement h p s

end Sys2Proof.Machine
end

