-- ==== Sys2Proof/Machine/Peripheral.lean ====
section
/-! DEFINITION. The micro-steps of the peripheral block other than `P_VALIDATE` (R171 to R175, R180, R182 to R186): what
each does to the block when its transaction is complete. What the transactions do to the link is in Ops.lean and
Agents.lean. -/

namespace Sys2Proof.Machine

/-- `P_INIT_IN` (R171). -/
def Per.initedIn (p : Per) : Per := p.begin.goto .initOut

/-- `P_INIT_OUT` (R171). -/
def Per.initedOut (p : Per) : Per := p.begin.goto .checkOut

/-- `P_CHECK_OUT` with the count the transport returns (R172): anything still queued skips the cycle. -/
def Per.tookOutCount (count : Nat) (p : Per) : Per :=
  { p.begin with pOcnt := count, pstep := if count ≠ 0 then .sleep else .checkIn }

/-- `P_CHECK_IN` with the count the transport returns (R173). -/
def Per.tookInCount (count : Nat) (p : Per) : Per :=
  { p.begin with pIcnt := count, pstep := if Config.pktBytes ≤ count then .recv else .sleep }

/-- `P_RECV` with the bytes the transport returns (R174). -/
def Per.received (o : ByteOrder) (b : Bytes4) (p : Per) : Per :=
  { p.begin with pReq := (deser o b).word, pstep := .disableIn }

/-- `P_DISABLE_IN` (R175). -/
def Per.disabledIn (p : Per) : Per := p.begin.goto .validate

/-- `P_SAMPLE` with the sample the source returns (R180): passed through unmodified. -/
def Per.sampled (v : BitVec 16) (p : Per) : Per :=
  ({ p.begin with pSmp := v }.reply v).goto .send

/-- `P_SEND` (R182). -/
def Per.sent (p : Per) : Per := p.begin.goto .enableIn

/-- `P_RESET` (R183). -/
def Per.wasReset (p : Per) : Per := p.begin.goto .enableOut

/-- `P_ENABLE_OUT` (R184). -/
def Per.enabledOut (p : Per) : Per := p.begin.goto .enableIn

/-- `P_ENABLE_IN` (R185). -/
def Per.enabledIn (p : Per) : Per := p.begin.goto .sleep

/-- `P_SLEEP`, once `T_POLL` has elapsed (R186). -/
def Per.slept (p : Per) : Per := p.begin.goto .checkOut

/-- The block while `rst_n` is low (R331): every register at its reset value. What its event sink has recorded is not
the block's and stays. -/
def Per.heldInReset (p : Per) : Per := { Per.atReset with rstN := false, out := p.out.clear }

/-- The platform drives `rst_n` to a level: low resets the block at once, high lets it go on from where it is (R331). -/
def Per.setPin (level : Bool) (p : Per) : Per := if level then { p with rstN := true } else p.heldInReset

/-- The four bytes `Ser(p_rsp)` that `P_SEND` queues (R182). -/
def Per.txBytes (o : ByteOrder) (p : Per) : Bytes4 := ser o (packetOf p.pRsp)

end Sys2Proof.Machine
end

