-- ==== Sys2Proof/Machine/Agents.lean ====
section
/-! DEFINITION. The three agents of the link model (R260) and the platform at the reset pins (R331): one step of each,
and one step of the whole, in which the one whose turn it is moves (R273). An agent that has no enabled step is held, and
only the turn passes (R54). -/

namespace Sys2Proof.Machine

/-- The transaction outcome of a controller step that also acts on the link. -/
def State.ctrlLink (f : Ctrl → Ctrl) (g : Link → Link) (s : State) : Host.Outcome State Fault Refusal :=
  .next { s with ctrl := f s.ctrl, link := g s.link }

/-- The transaction outcome of a peripheral step that also acts on the link. -/
def State.perLink (f : Per → Per) (g : Link → Link) (s : State) : Host.Outcome State Fault Refusal :=
  .next { s with per := f s.per, link := g s.link }

/-- The instruction the controller runs at `C_VALIDATE`: the response in `c_rxp`, decoded in its phase (R110). -/
def State.response (s : State) : Instr := decodeResponseWord s.ctrl.phase s.ctrl.cRxp

/-- The instruction the peripheral runs at `P_VALIDATE`: the request in `p_req` (R108). -/
def State.request (s : State) : Instr := decodeRequestWord s.per.pReq

/-- `C_SEND` (R133, R263): issue, then, after four beats, complete; held in between. -/
def controllerSend (s : State) : Host.Outcome State Fault Refusal :=
  match s.link.xfer with
  | .idle => s.ctrlLink Ctrl.begin (Link.issueSend (s.ctrl.txBytes s.params.cOrder))
  | .send _ i => if i = Config.pktBytes then s.ctrlLink Ctrl.sent Link.finish else .next s
  | .recv _ => .next s

/-- `C_RECV` (R135, R264): issue, then, after four beats, complete; held in between. -/
def controllerRecv (s : State) : Host.Outcome State Fault Refusal :=
  match s.link.xfer with
  | .idle => s.ctrlLink Ctrl.begin Link.issueRecv
  | .send _ _ => .next s
  | .recv acc =>
      match takeBytes4 acc with
      | some (b, _) => s.ctrlLink (Ctrl.received s.params.cOrder b) Link.finish
      | none => .next s

/-- One step of the controller block (R130). -/
def controllerStep (s : State) : Host.Outcome State Fault Refusal :=
  match s.ctrl.cstep with
  | .build => s.ctrlLink Ctrl.build id
  | .select => s.ctrlLink Ctrl.selected (Link.select true)
  | .send => controllerSend s
  | .settle => s.ctrlLink Ctrl.settled id
  | .recv => controllerRecv s
  | .deselect => s.ctrlLink Ctrl.deselected (Link.select false)
  | .validate => exec s.response s
  | .post => s.ctrlLink Ctrl.posted id
  | .reset => s.ctrlLink Ctrl.wasReset Link.resetController
  | .sleep => s.ctrlLink Ctrl.slept id

/-- `P_RECV` (R174, R268). -/
def peripheralRecv (s : State) : Host.Outcome State Fault Refusal :=
  match s.link.receive with
  | some (b, l) => .next { s with per := s.per.received s.params.pOrder b, link := l }
  | none => .refused .receiveShort

/-- `P_SEND` (R182, R268). -/
def peripheralSend (s : State) : Host.Outcome State Fault Refusal :=
  if s.link.canSend s.params.outDepth then
    s.perLink Per.sent (Link.queue (s.per.txBytes s.params.pOrder))
  else .refused .sendNotReady

/-- `P_SAMPLE` (R180): the source is asked once. -/
def peripheralSample (s : State) : Host.Outcome State Fault Refusal :=
  .next { s with per := s.per.sampled s.inputs.sample, inputs := s.inputs.dropSample }

/-- One step of the peripheral block (R170). -/
def peripheralStep (s : State) : Host.Outcome State Fault Refusal :=
  match s.per.pstep with
  | .initIn => s.perLink Per.initedIn Link.enableInbound
  | .initOut => s.perLink Per.initedOut Link.enableOutbound
  | .checkOut => s.perLink (Per.tookOutCount s.link.outboundPending) id
  | .checkIn => s.perLink (Per.tookInCount s.link.inboundPending) id
  | .recv => peripheralRecv s
  | .disableIn => s.perLink Per.disabledIn Link.disableInbound
  | .validate => exec s.request s
  | .sample => peripheralSample s
  | .send => peripheralSend s
  | .reset => s.perLink Per.wasReset Link.resetPeripheral
  | .enableOut => s.perLink Per.enabledOut Link.enableOutbound
  | .enableIn => s.perLink Per.enabledIn Link.enableInbound
  | .sleep => s.perLink Per.slept id

/-- One step of the wire: a beat where one is enabled (R265), nothing where none is. -/
def wireStep (s : State) : Host.Outcome State Fault Refusal :=
  match s.link.beatKind with
  | some k =>
      .next { s with
        link := (beatOn s.params k s.link (s.inputs.beginBeat k.first)).1
        inputs := (beatOn s.params k s.link (s.inputs.beginBeat k.first)).2 }
  | none => .next s

/-- The controller's turn: a step, or, while `rst_n` is low, the registers held at their reset values (R331). -/
def controllerTurn (s : State) : Host.Outcome State Fault Refusal :=
  if s.ctrl.rstN then controllerStep s else .next { s with ctrl := s.ctrl.heldInReset }

/-- The peripheral's turn: a step, or, while `rst_n` is low, the registers held at their reset values (R331). -/
def peripheralTurn (s : State) : Host.Outcome State Fault Refusal :=
  if s.per.rstN then peripheralStep s else .next { s with per := s.per.heldInReset }

/-- The platform's turn: the reset pins are driven, the link is not touched (R331, R335). -/
def platformTurn (c p : Bool) (s : State) : Host.Outcome State Fault Refusal :=
  .next { s with ctrl := s.ctrl.setPin c, per := s.per.setPin p }

/-- The turn of an agent. -/
def agentTurn (a : Agent) (s : State) : Host.Outcome State Fault Refusal :=
  match a with
  | .controller => controllerTurn s
  | .peripheral => peripheralTurn s
  | .wire => wireStep s
  | .platform c p => platformTurn c p s

/-- One step of the composed system. A run in which a byte was lost to a full buffer has faulted (R267), and a transfer
abandoned by a reset is refused (U10); otherwise the agent whose turn it is moves. -/
def runStep (s : State) : Host.Outcome State Fault Refusal :=
  if s.link.overrun then .fault .inboundOverrun
  else if !s.ctrl.rstN && s.link.xfer != .idle then .refused .abandonedTransaction
  else agentTurn s.inputs.turn s.advance

/-- Whether an agent has an enabled step (R260): what the fairness premise (R355) and the hold (R54) speak of. The
platform may always drive its pins. -/
def enabled (a : Agent) (s : State) : Bool :=
  match a with
  | .controller =>
      s.ctrl.rstN &&
        match s.ctrl.cstep, s.link.xfer with
        | .send, .send _ i => i == Config.pktBytes
        | .send, .recv _ => false
        | .recv, .recv acc => decide (Config.pktBytes ≤ acc.length)
        | .recv, .send _ _ => false
        | _, _ => true
  | .peripheral =>
      s.per.rstN &&
        match s.per.pstep with
        | .recv => decide (Config.pktBytes ≤ s.link.inFifo.length)
        | .send => s.link.canSend s.params.outDepth
        | _ => true
  | .wire => s.link.beatKind.isSome
  | .platform _ _ => true

/-- The request a bare table word puts before the peripheral: `P_VALIDATE` is next, with the word in `p_req`. -/
def State.placeRequest (w : Word) (s : State) : State :=
  { s with
    per := { s.per with pReq := w, pstep := .validate }
    inputs := { s.inputs with sched := .peripheral :: s.inputs.sched.tail } }

/-- The response a bare table word puts before the controller in a phase: `C_VALIDATE` is next, with the word in
`c_rxp`. -/
def State.placeResponse (ph : Phase) (w : Word) (s : State) : State :=
  { s with
    ctrl := { s.ctrl with cRxp := w, phase := ph, cstep := .validate }
    inputs := { s.inputs with sched := .controller :: s.inputs.sched.tail } }

/-- A bare table word placed where its context reads it (log entry 8). -/
def State.place (w : Word) (s : State) : State :=
  match tableContext w with
  | .request => s.placeRequest w
  | .response ph => s.placeResponse ph w

end Sys2Proof.Machine
end

