-- ==== Sys2Proof/Machine/Step.lean ====
section
/-! DEFINITION. One step of the machine, and the placing of a word of the opcode table before its receiver. -/

namespace Sys2Proof.Machine

/-- One step (R12, R260, R273). -/
def step (s : State) : Host.Outcome State Fault Refusal := runStep s

/-- The state in which the very next step runs the packet of a table word: the word stands in the packet register of
its receiver, whose validation is next and whose turn it is. It stands for the transfer that would have brought it
there (log entry 8). -/
def State.withFetchWord (s : State) (nbits w : Nat) : State := s.place (tableWord nbits w)

end Sys2Proof.Machine
end

