-- ==== Sys2Proof/Machine/Ports.lean ====
section
/-! DEFINITION. The ports of the two blocks (R52, R53). The outputs are functions of the block: which interface
transaction it requests (R54, R229), with its operands, and its reading, event and observation outputs. The inputs are
what the collaborators present at the block's turn: an acknowledge, and the data that is valid with it. A request and
its acknowledge are one step of the model (R12, R54; log entry 25). -/

namespace Sys2Proof.Machine

/-- The three delays (R228, R311). -/
inductive Delay where
  | settle
  | cycle
  | poll
  deriving DecidableEq, Repr

/-- The interface operations (R210, R227, R228), as a block requests them. -/
inductive Op where
  | select (active : Bool)
  | send (b : Bytes4)
  | receive
  | inboundPending
  | outboundPending
  | enableInbound
  | disableInbound
  | enableOutbound
  | reset
  | sample
  | wait (d : Delay)
  deriving DecidableEq, Repr

/-- The operation the controller requests at its step; none at `C_BUILD`, `C_VALIDATE`, `C_POST` and in reset (R229). -/
def Ctrl.op (o : ByteOrder) (c : Ctrl) : Option Op :=
  if c.rstN then
    match c.cstep with
    | .build => none
    | .select => some (.select true)
    | .send => some (.send (c.txBytes o))
    | .settle => some (.wait .settle)
    | .recv => some .receive
    | .deselect => some (.select false)
    | .validate => none
    | .post => none
    | .reset => some .reset
    | .sleep => some (.wait .cycle)
  else none

/-- The operation the peripheral requests at its step; none at `P_VALIDATE` and in reset (R229). -/
def Per.op (o : ByteOrder) (p : Per) : Option Op :=
  if p.rstN then
    match p.pstep with
    | .initIn => some .enableInbound
    | .initOut => some .enableOutbound
    | .checkOut => some .outboundPending
    | .checkIn => some .inboundPending
    | .recv => some .receive
    | .disableIn => some .disableInbound
    | .validate => none
    | .sample => some .sample
    | .send => some (.send (p.txBytes o))
    | .reset => some .reset
    | .enableOut => some .enableOutbound
    | .enableIn => some .enableInbound
    | .sleep => some (.wait .poll)
  else none

/-- `t_wdata`: byte `b0` in bits 7:0, `b3` in bits 31:24 (R52). -/
def wdata (b : Bytes4) : BitVec 32 := b.b3 ++ b.b2 ++ b.b1 ++ b.b0

/-- The four bytes a data word carries, in the same layout (R52). -/
def bytesOfData (w : BitVec 32) : Bytes4 :=
  ⟨w.extractLsb' 0 8, w.extractLsb' 8 8, w.extractLsb' 16 8, w.extractLsb' 24 8⟩

/-- `t_rdata` for a `RECV`: "the four bytes received, laid out like `t_wdata`" (R52, R53). -/
def rdataBytes (b : Bytes4) : BitVec 32 := wdata b

/-- `t_rdata` for `IN_PENDING` and `OUT_PENDING`: "the count as an unsigned number" (R53). A count of 2^32 or more does
not fit the port; the step takes the natural number of R44 (log entry 26). -/
def rdataCount (count : Nat) : BitVec 32 := BitVec.ofNat 32 count

/-- `t_op` of the controller, where the operation is one of its transport (R52). -/
def ctrlOpCode : Op → Option (BitVec 3)
  | .select true => some 0#3
  | .select false => some 1#3
  | .send _ => some 2#3
  | .receive => some 3#3
  | .reset => some 4#3
  | _ => none

/-- `t_op` of the peripheral, where the operation is one of its transport (R53). -/
def perOpCode : Op → Option (BitVec 3)
  | .inboundPending => some 0#3
  | .outboundPending => some 1#3
  | .receive => some 2#3
  | .send _ => some 3#3
  | .disableInbound => some 4#3
  | .enableInbound => some 5#3
  | .enableOutbound => some 6#3
  | .reset => some 7#3
  | _ => none

/-- `tm_sel` of the controller, where the operation is a delay of its own (R52). -/
def ctrlDelayCode : Op → Option (BitVec 1)
  | .wait .settle => some 0#1
  | .wait .cycle => some 1#1
  | _ => none

/-- `obs_phase`: the code of the phase (R32, R52). -/
def phaseCode : Phase → BitVec 2
  | .detectDevice => 0#2
  | .readUnit => 1#2
  | .readMeasurement => 2#2

/-- The code of `cstep` (R34). -/
def cstepCode : CStep → BitVec 4
  | .build => 0#4
  | .select => 1#4
  | .send => 2#4
  | .settle => 3#4
  | .recv => 4#4
  | .deselect => 5#4
  | .validate => 6#4
  | .post => 7#4
  | .reset => 8#4
  | .sleep => 9#4

/-- The code of `pstep` (R42). -/
def pstepCode : PStep → BitVec 4
  | .initIn => 0#4
  | .initOut => 1#4
  | .checkOut => 2#4
  | .checkIn => 3#4
  | .recv => 4#4
  | .disableIn => 5#4
  | .validate => 6#4
  | .sample => 7#4
  | .send => 8#4
  | .reset => 9#4
  | .enableOut => 10#4
  | .enableIn => 11#4
  | .sleep => 12#4

/-- The outputs of the controller block (R52). `t_op`, `t_wdata` and `tm_sel` are given only where they mean something.
`events` is what `ev_valid`, `ev_code` and `ev_info` present for the last step, in order. -/
structure CtrlPorts where
  tReq : Bool
  tOp : Option (BitVec 3)
  tWdata : Option (BitVec 32)
  tmStart : Bool
  tmSel : Option (BitVec 1)
  rdValid : Bool
  rdWhole : BitVec 16
  rdFrac : BitVec 7
  events : List EvRecord
  obsPhase : BitVec 2
  obsRetry : Nat
  deriving DecidableEq, Repr

/-- The outputs of the peripheral block (R53). -/
structure PerPorts where
  tReq : Bool
  tOp : Option (BitVec 3)
  tWdata : Option (BitVec 32)
  mReq : Bool
  tmStart : Bool
  events : List EvRecord
  obsRetry : Nat
  deriving DecidableEq, Repr

/-- `t_wdata` of an operation: the bytes of a `send`. -/
def Op.wdata? : Op → Option (BitVec 32)
  | .send b => some (wdata b)
  | _ => none

/-- The controller's ports at a state of the block. -/
def Ctrl.ports (o : ByteOrder) (c : Ctrl) : CtrlPorts :=
  { tReq := ((c.op o).bind ctrlOpCode).isSome
    tOp := (c.op o).bind ctrlOpCode
    tWdata := (c.op o).bind Op.wdata?
    tmStart := ((c.op o).bind ctrlDelayCode).isSome
    tmSel := (c.op o).bind ctrlDelayCode
    rdValid := c.rdValid
    rdWhole := c.rdWhole
    rdFrac := c.rdFrac
    events := c.out.port
    obsPhase := phaseCode c.phase
    obsRetry := c.cRetry }

/-- The peripheral's ports at a state of the block. -/
def Per.ports (o : ByteOrder) (p : Per) : PerPorts :=
  { tReq := ((p.op o).bind perOpCode).isSome
    tOp := (p.op o).bind perOpCode
    tWdata := (p.op o).bind Op.wdata?
    mReq := p.op o == some .sample
    tmStart := p.op o == some (.wait .poll)
    events := p.out.port
    obsRetry := p.pRetry }

/-- The inputs of the controller block (R52). `t_rdata` is given only where it is valid, with `t_ack`. -/
structure CtrlInPorts where
  rstN : Bool
  tAck : Bool
  tRdata : Option (BitVec 32)
  tmDone : Bool
  deriving DecidableEq, Repr

/-- The inputs of the peripheral block (R53). `t_rdata` and `m_data` are given only where they are valid, with their
acknowledge. -/
structure PerInPorts where
  rstN : Bool
  tAck : Bool
  tRdata : Option (BitVec 32)
  mAck : Bool
  mData : Option (BitVec 16)
  tmDone : Bool
  deriving DecidableEq, Repr

/-- The four bytes a controller `receive` in flight returns, once they are in (R214, R264). -/
def Link.received? (l : Link) : Option Bytes4 :=
  match l.xfer with
  | .recv acc => (takeBytes4 acc).map Prod.fst
  | _ => none

/-- The controller `send` in flight has done its beats (R213, R263). -/
def Link.sendDone (l : Link) : Bool :=
  match l.xfer with
  | .send _ i => i == Config.pktBytes
  | _ => false

/-- What the collaborators present to the controller block at its turn (R52, R54): the acknowledge of the operation it
requests, where the operation completes, and the bytes of a `RECV`. -/
def State.ctrlInPorts (s : State) : CtrlInPorts :=
  { rstN := s.ctrl.rstN
    tAck :=
      match s.ctrl.op s.params.cOrder with
      | some (.send _) => s.link.sendDone
      | some .receive => s.link.received?.isSome
      | some op => (ctrlOpCode op).isSome
      | none => false
    tRdata :=
      match s.ctrl.op s.params.cOrder with
      | some .receive => s.link.received?.map rdataBytes
      | _ => none
    tmDone := ((s.ctrl.op s.params.cOrder).bind ctrlDelayCode).isSome }

/-- What the collaborators present to the peripheral block at its turn (R53, R54): the acknowledge of the operation it
requests, where that is enabled, with the count, the bytes or the sample it returns. -/
def State.perInPorts (s : State) : PerInPorts :=
  { rstN := s.per.rstN
    tAck :=
      match s.per.op s.params.pOrder with
      | some (.send _) => s.link.canSend s.params.outDepth
      | some .receive => s.link.receive.isSome
      | some op => (perOpCode op).isSome
      | none => false
    tRdata :=
      match s.per.op s.params.pOrder with
      | some .inboundPending => some (rdataCount s.link.inboundPending)
      | some .outboundPending => some (rdataCount s.link.outboundPending)
      | some .receive => s.link.receive.map fun r => rdataBytes r.1
      | _ => none
    mAck := s.per.op s.params.pOrder == some .sample
    mData := if s.per.op s.params.pOrder = some .sample then some s.inputs.sample else none
    tmDone := s.per.op s.params.pOrder == some (.wait .poll) }

end Sys2Proof.Machine
end

