-- ==== Sys2Proof/Machine/Cycle.lean ====
section
/-! DEFINITION. The whole-cycle summaries `CtrlCycle` (R150) and `PerCycle` (R195), and each role run alone against
stated answers of its collaborators (R12: the micro-steps that the summaries are the composition of). -/

namespace Sys2Proof.Machine

/-- What one cycle of the controller leaves: state, events and operations (R150). -/
structure CtrlCycleResult where
  phase : Phase
  retry : Nat
  events : List Event
  ops : List Op
  deriving DecidableEq, Repr

/-- What one cycle of the peripheral leaves (R195). -/
structure PerCycleResult where
  retry : Nat
  events : List Event
  ops : List Op
  deriving DecidableEq, Repr

/-- The validation of a response in a cycle: phase, count and events (R150, the first choice). -/
def ctrlJudge (retryW : Nat) (ph : Phase) (retry : Nat) (rsp : Packet) : Phase × Nat × List Event :=
  if rsp.header ≠ Config.sentinel then (ph, satInc retryW retry, [.eFrame rsp.header])
  else
    match ph with
    | .detectDevice =>
        if rsp.payload = Config.idConst then (.readUnit, 0, [])
        else (.detectDevice, satInc retryW retry, [.eSemantic rsp.payload])
    | .readUnit =>
        if rsp.payload = Config.unitConst then (.readMeasurement, 0, [])
        else (.readUnit, satInc retryW retry, [.eSemantic rsp.payload])
    | .readMeasurement =>
        (.readMeasurement, 0,
          [.reading (decodeWhole (asSigned16 rsp.payload)) (decodeFrac (asSigned16 rsp.payload))])

/-- `CtrlCycle(phase, c_retry, b)` (R150). -/
def ctrlCycle (retryW : Nat) (o : ByteOrder) (ph : Phase) (retry : Nat) (b : Bytes4) : CtrlCycleResult :=
  let ops1 := [Op.select true, .send (ser o ⟨Config.sentinel, cmdFor ph⟩), .wait .settle, .receive, .select false]
  let (ph1, rt1, ev1) := ctrlJudge retryW ph retry (deser o b)
  if Config.cMaxRetries < rt1 then
    ⟨.detectDevice, 0, ev1 ++ [.eBudget], ops1 ++ [.reset] ++ [.wait .cycle]⟩
  else ⟨ph1, rt1, ev1, ops1 ++ [.wait .cycle]⟩

/-- What the peripheral's collaborators answer during one cycle (R195). -/
structure PerAnswers where
  oc : Nat
  ic : Nat
  b : Bytes4
  v : BitVec 16
  deriving DecidableEq, Repr

/-- `PerCycle(p_retry; oc, ic, b, v)` (R195). -/
def perCycle (retryW : Nat) (clear : Bool) (o : ByteOrder) (retry : Nat) (a : PerAnswers) : PerCycleResult :=
  if a.oc ≠ 0 then ⟨retry, [], [.outboundPending, .wait .poll]⟩
  else if a.ic < Config.pktBytes then ⟨retry, [], [.outboundPending, .inboundPending, .wait .poll]⟩
  else
    let ops := [Op.outboundPending, .inboundPending, .receive, .disableInbound]
    let req := deser o a.b
    if req.header ≠ Config.sentinel then
      if Config.pMaxRetries < satInc retryW retry then
        ⟨if clear then 0 else satInc retryW retry, [.eFrame req.header, .eBudget],
          ops ++ [.reset, .enableOutbound, .enableInbound, .wait .poll]⟩
      else ⟨satInc retryW retry, [.eFrame req.header], ops ++ [.enableInbound, .wait .poll]⟩
    else if req.payload = Config.cmdGetIdentity then
      ⟨0, [], ops ++ [.send (ser o ⟨Config.sentinel, Config.idConst⟩), .enableInbound, .wait .poll]⟩
    else if req.payload = Config.cmdGetUnit then
      ⟨0, [], ops ++ [.send (ser o ⟨Config.sentinel, Config.unitConst⟩), .enableInbound, .wait .poll]⟩
    else if req.payload = Config.cmdGetMeasurement then
      ⟨0, [], ops ++ [.sample, .send (ser o ⟨Config.sentinel, a.v⟩), .enableInbound, .wait .poll]⟩
    else ⟨0, [.eUnknownCmd req.payload], ops ++ [.enableInbound, .wait .poll]⟩

/-- Cycles of the controller in a row, one for each response received (R152). -/
def ctrlTrace (retryW : Nat) (o : ByteOrder) : Phase → Nat → List Bytes4 → List CtrlCycleResult
  | _, _, [] => []
  | ph, retry, b :: bs =>
      ctrlCycle retryW o ph retry b ::
        ctrlTrace retryW o (ctrlCycle retryW o ph retry b).phase (ctrlCycle retryW o ph retry b).retry bs

/-- Cycles of the peripheral in a row, one for each set of answers (R197). -/
def perTrace (retryW : Nat) (clear : Bool) (o : ByteOrder) : Nat → List PerAnswers → List PerCycleResult
  | _, [] => []
  | retry, a :: as =>
      perCycle retryW clear o retry a :: perTrace retryW clear o (perCycle retryW clear o retry a).retry as

/-- A micro-step of the controller alone: every transaction is answered at once, a `receive` with `b`. -/
def controllerAlone (b : Bytes4) (s : State) : Host.Outcome State Fault Refusal :=
  match s.ctrl.cstep with
  | .build => s.ctrlLink Ctrl.build id
  | .select => s.ctrlLink Ctrl.selected id
  | .send => s.ctrlLink Ctrl.sent id
  | .settle => s.ctrlLink Ctrl.settled id
  | .recv => s.ctrlLink (Ctrl.received s.params.cOrder b) id
  | .deselect => s.ctrlLink Ctrl.deselected id
  | .validate => exec s.response s
  | .post => s.ctrlLink Ctrl.posted id
  | .reset => s.ctrlLink Ctrl.wasReset id
  | .sleep => s.ctrlLink Ctrl.slept id

/-- A micro-step of the peripheral alone: every transaction is answered at once, as `a` says. -/
def peripheralAlone (a : PerAnswers) (s : State) : Host.Outcome State Fault Refusal :=
  match s.per.pstep with
  | .initIn => s.perLink Per.initedIn id
  | .initOut => s.perLink Per.initedOut id
  | .checkOut => s.perLink (Per.tookOutCount a.oc) id
  | .checkIn => s.perLink (Per.tookInCount a.ic) id
  | .recv => s.perLink (Per.received s.params.pOrder a.b) id
  | .disableIn => s.perLink Per.disabledIn id
  | .validate => exec s.request s
  | .sample => s.perLink (Per.sampled a.v) id
  | .send => s.perLink Per.sent id
  | .reset => s.perLink Per.wasReset id
  | .enableOut => s.perLink Per.enabledOut id
  | .enableIn => s.perLink Per.enabledIn id
  | .sleep => s.perLink Per.slept id

/-- `k` micro-steps of the controller alone, with the operations it requested, in order; `none` where one stops. -/
def controllerAloneRun (b : Bytes4) : Nat → State → Option (State × List Op)
  | 0, s => some (s, [])
  | k + 1, s =>
      match controllerAlone b s with
      | .next t =>
          (controllerAloneRun b k t).map fun r => (r.1, (s.ctrl.op s.params.cOrder).toList ++ r.2)
      | _ => none

/-- `k` micro-steps of the peripheral alone, with the operations it requested, in order; `none` where one stops. -/
def peripheralAloneRun (a : PerAnswers) : Nat → State → Option (State × List Op)
  | 0, s => some (s, [])
  | k + 1, s =>
      match peripheralAlone a s with
      | .next t =>
          (peripheralAloneRun a k t).map fun r => (r.1, (s.per.op s.params.pOrder).toList ++ r.2)
      | _ => none

end Sys2Proof.Machine
end

