-- ==== Sys2Proof/Safety.lean ====
section
/-! DEFINITION. What counts as a good state and a good run, in the terms the statements use: the invariants (R55 to R57
and the preconditions of R215, R216), the quiescent points (R274), the schedule premises of the hazards (R275, R345,
R346), the premises on fill and underflow bytes (R266), and fairness (R355). -/

namespace Sys2Proof.Machine

/-- No reset stands in the way of `a`'s turn: a block that moves is out of reset, and no transfer has been abandoned by
a reset of the controller (U10). The other block may be in reset (R339: "The two roles start independently"). -/
def State.free (a : Agent) (s : State) : Bool :=
  match a with
  | .controller => s.ctrl.rstN
  | .peripheral => s.per.rstN && (s.ctrl.rstN || s.link.xfer == .idle)
  | .wire => s.ctrl.rstN || s.link.xfer == .idle
  | .platform _ _ => s.ctrl.rstN || s.link.xfer == .idle

/-- It is `a`'s turn, no byte has been lost to a full buffer, and no reset stands in the way. -/
abbrev Running (a : Agent) (s : State) : Prop :=
  s.link.overrun = false ∧ s.inputs.turn = a ∧ s.free a = true

/-- The steps of an exchange in which select is active (R37, R56). -/
def CStep.selected : CStep → Bool
  | .send => true
  | .settle => true
  | .recv => true
  | .deselect => true
  | _ => false

/-- The steps in which the peripheral's inbound buffering is on (R171, R175, R185). -/
def PStep.listening : PStep → Bool
  | .initOut => true
  | .checkOut => true
  | .checkIn => true
  | .recv => true
  | .disableIn => true
  | .sleep => true
  | _ => false

/-- The steps in which the peripheral's outbound buffering is on (R171, R183, R184). -/
def PStep.replying : PStep → Bool
  | .initIn => false
  | .initOut => false
  | .enableOut => false
  | _ => true

/-- The steps of a peripheral cycle before its reply is queued: `P_CHECK_OUT` found nothing queued (R172, R182). -/
def PStep.beforeReply : PStep → Bool
  | .checkIn => true
  | .recv => true
  | .disableIn => true
  | .validate => true
  | .sample => true
  | .send => true
  | _ => false

/-- The bounds of the two retry counts (R57). -/
abbrev RetryInv (s : State) : Prop :=
  (s.ctrl.cRetry ≤ 6 ∧ (s.ctrl.cstep ≠ .post → s.ctrl.cRetry ≤ 5)) ∧
    (if s.params.perClearOnReset then s.per.pRetry ≤ 25 else s.per.pRetry ≤ 2 ^ s.params.retryW - 1)

/-- The transfer in flight belongs to the controller's step (R262, R263, R264). -/
def xferFits (s : State) : Bool :=
  match s.link.xfer with
  | .idle => true
  | .send b i => s.ctrl.cstep == .send && b == s.ctrl.txBytes s.params.cOrder && decide (i ≤ 4)
  | .recv acc => s.ctrl.cstep == .recv && decide (acc.length ≤ 4)

/-- The controller's side of an exchange: select is active exactly in its span, on the register and on the wire (R37,
R56), the transfer in flight is the step's, and the request being sent is the phase's (R131, R144). -/
abbrev ExchangeInv (s : State) : Prop :=
  s.ctrl.rstN = true ∧
    s.ctrl.sel = s.ctrl.cstep.selected ∧
    s.link.selW = s.ctrl.cstep.selected ∧
    xferFits s = true ∧
    (s.ctrl.cstep = .select ∨ s.ctrl.cstep = .send → s.ctrl.cTxp = requestWord s.ctrl.phase)

/-- The peripheral's side: the enables are as its step says, at most one reply is queued (R182), none is queued before
the cycle's own (R172), a packet is there to be received (R216), and what is sent is framed (R109). -/
abbrev ReplyInv (s : State) : Prop :=
  s.per.rstN = true ∧
    s.link.inEn = s.per.pstep.listening ∧
    s.link.outEn = s.per.pstep.replying ∧
    s.link.inFifo.length ≤ s.params.inDepth ∧
    s.link.outFifo.length ≤ 4 ∧
    (s.per.pstep.beforeReply = true → s.link.outFifo = []) ∧
    (s.per.pstep = .recv → 4 ≤ s.link.inFifo.length) ∧
    (s.per.pstep = .send → framed s.per.pRsp = true)

/-- The invariant of every run from reset: parameters within their limits, the three parts, and the draws of each
transfer within the configured predicates (R266). -/
abbrev Inv (s : State) : Prop :=
  s.params.Ok ∧ RetryInv s ∧ ExchangeInv s ∧ ReplyInv s ∧ s.inputs.drawsAllowed s.params = true

/-- How `phase` may change in one step (R55): not at all, one place forward, or to DetectDevice when the count is over
the threshold at `C_POST`. -/
abbrev PhaseMoves (s t : State) : Prop :=
  t.ctrl.phase = s.ctrl.phase ∨
    (s.ctrl.phase = .detectDevice ∧ t.ctrl.phase = .readUnit) ∨
    (s.ctrl.phase = .readUnit ∧ t.ctrl.phase = .readMeasurement) ∨
    (t.ctrl.phase = .detectDevice ∧ s.ctrl.cstep = .post ∧ 5 < s.ctrl.cRetry)

/-- A quiescent point (R274). -/
abbrev Quiescent (s : State) : Prop :=
  s.link.xfer = .idle ∧ s.link.selW = false ∧ s.link.inFifo = [] ∧ s.link.outFifo = [] ∧
    s.link.inEn = true ∧ s.link.outEn = true ∧
    (s.ctrl.cstep = .sleep ∨ s.ctrl.cstep = .build) ∧
    (s.per.pstep = .sleep ∨ s.per.pstep = .checkOut ∨ s.per.pstep = .checkIn)

/-- The schedule premise of hazard H1 at the issue of the `receive` (R345): the reply to the request just sent is
queued, and nothing else is. -/
abbrev ReplyReady (reply : Bytes4) (s : State) : Prop :=
  s.link.outEn = true ∧ s.link.outFifo = reply.toList

/-- The steps from `P_RECV` to `P_ENABLE_IN`, in which a packet is being processed (R346). -/
def PStep.processing : PStep → Bool
  | .recv => true
  | .disableIn => true
  | .validate => true
  | .sample => true
  | .send => true
  | .reset => true
  | .enableOut => true
  | .enableIn => true
  | _ => false

/-- The schedule premise of hazard H2 at `select(true)` (R346). -/
abbrev ReadyForExchange (s : State) : Prop :=
  s.link.inFifo = [] ∧ s.link.outFifo = [] ∧ s.link.inEn = true ∧ s.link.outEn = true ∧
    s.per.pstep.processing = false

/-- How many steps the peripheral's cycle takes for the request of a phase: one more where it samples (R180). -/
def replySteps : Phase → Nat
  | .detectDevice => 8
  | .readUnit => 8
  | .readMeasurement => 9

/-- One tuned schedule of those R275 admits, without idle steps, from `C_BUILD` and `P_CHECK_OUT`: the whole `send`; one
peripheral cycle in the settle delay; the whole `receive` and the judging of the response; one peripheral cycle for the
fill packet in the controller's sleep; and the end of that sleep. -/
def tunedSchedule (ph : Phase) : List Agent :=
  List.replicate 3 .controller ++ List.replicate 4 .wire ++ [.controller] ++
    List.replicate (replySteps ph) .peripheral ++
    List.replicate 2 .controller ++ List.replicate 4 .wire ++ List.replicate 4 .controller ++
    List.replicate 7 .peripheral ++ [.controller]

/-- The four steps of the tuned schedule (R275): (1) the `send`, (2) the settle delay, (3) the `receive`, (4) the rest. -/
inductive TunedStage where
  | send
  | settle
  | receive
  | rest
  deriving DecidableEq, Repr

/-- The peripheral's next step changes nothing: `P_SLEEP`, `P_CHECK_OUT` with count 0, `P_CHECK_IN` with count below 4
(R275, step 1). -/
def State.perIdles (s : State) : Bool :=
  match s.per.pstep with
  | .sleep => true
  | .checkOut => s.link.outFifo.isEmpty
  | .checkIn => decide (s.link.inFifo.length < Config.pktBytes)
  | _ => false

/-- The peripheral's next step skips a cycle, `P_CHECK_OUT` with a count that is not 0, or sleeps (R275, step 3). -/
def State.perSkips (s : State) : Bool :=
  match s.per.pstep with
  | .sleep => true
  | .checkOut => !s.link.outFifo.isEmpty
  | _ => false

/-- The stage a state belongs to, given the one before: (1) ends with the `send`, (2) when the peripheral's cycle that
takes the request has come to `P_SLEEP`, (3) with the `receive`. -/
def TunedStage.after (s : State) : TunedStage → TunedStage
  | .send => if s.ctrl.cstep = .settle then .settle else .send
  | .settle => if s.per.pstep = .sleep ∧ s.link.inFifo = [] then .receive else .settle
  | .receive => if s.ctrl.cstep = .deselect then .rest else .receive
  | .rest => .rest

/-- Whose enabled step the tuned schedule admits in a stage (R275). Where the peripheral stands when a stage begins is
left open: it may have idled to `P_SLEEP`, `P_CHECK_OUT` or `P_CHECK_IN` in the stage before. -/
def TunedStage.admits (s : State) (g : TunedStage) (a : Agent) : Bool :=
  enabled a s &&
    match g, a with
    | .send, .controller => s.ctrl.cstep ∈ [.sleep, .build, .select, .send]
    | .send, .wire => true
    | .send, .peripheral => s.perIdles
    | .settle, .peripheral => true
    | .receive, .controller => s.ctrl.cstep ∈ [.settle, .recv]
    | .receive, .wire => true
    | .receive, .peripheral => s.perSkips
    | .rest, .controller => s.ctrl.cstep ∈ [.deselect, .validate, .post, .reset]
    | .rest, .peripheral => true
    | _, _ => false

/-- Stage (4) is over: the controller sits in `C_SLEEP`, and the peripheral has run its cycles until `in_fifo` is empty
(R275). -/
def State.tunedOver (s : State) : Bool :=
  s.ctrl.cstep == .sleep && s.link.inFifo.isEmpty && s.per.pstep ∈ [.sleep, .checkOut, .checkIn]

/-- The `k` steps the schedule in `s` gives, as long as each is one that a tuned schedule admits (R275), and the state
in which stage (4) is over; `none` where the schedule is not tuned, or not one exchange long. -/
def tunedRun : Nat → TunedStage → State → Option State
  | 0, g, s => if g.after s = .rest ∧ s.tunedOver = true then some s else none
  | k + 1, g, s =>
      if (g.after s).admits s s.inputs.turn then
        match step s with
        | .next t => tunedRun k (g.after s) t
        | _ => none
      else none

/-- These four bytes do not look like a packet (R266). -/
abbrev NotFramed (o : ByteOrder) (b : Bytes4) : Prop := framed (deser o b).word = false

/-- No four consecutive bytes look like a packet: the premise of R266 on fill bytes, or on underflow bytes. -/
def noPacketIn (o : ByteOrder) : List Byte → Bool
  | b0 :: b1 :: b2 :: b3 :: rest => !framed (deser o ⟨b0, b1, b2, b3⟩).word && noPacketIn o (b1 :: b2 :: b3 :: rest)
  | _ => true

/-- The premise of R266 on the fill bytes of a whole run: no 4 consecutive ones look like a packet to the peripheral. -/
def FillsNeverFramed (run : Nat → State) : Prop :=
  ∀ n, noPacketIn (run n).params.pOrder (run n).inputs.fillsDrawn.all = true

/-- The same premise on the underflow bytes of a whole run, as the controller reads them (R266). -/
def UnderflowsNeverFramed (run : Nat → State) : Prop :=
  ∀ n, noPacketIn (run n).params.cOrder (run n).inputs.underflowsDrawn.all = true

/-- A response the controller counts as a failure in a phase (R152): a framing error, or a semantic mismatch. -/
def failsIn (o : ByteOrder) (ph : Phase) (b : Bytes4) : Bool :=
  (deser o b).header != Config.sentinel ||
    match ph with
    | .detectDevice => (deser o b).payload != Config.idConst
    | .readUnit => (deser o b).payload != Config.unitConst
    | .readMeasurement => false

/-- The collaborators answer a peripheral cycle with a whole packet to take (R172, R173). -/
def PerAnswers.takesPacket (a : PerAnswers) : Bool := a.oc == 0 && decide (4 ≤ a.ic)

/-- `k` steps of the machine, stopping at the first that does not answer a next state: a prefix of a run (R273, R337). -/
def stepN : Nat → State → Host.Outcome State Fault Refusal
  | 0, s => .next s
  | k + 1, s =>
      match step s with
      | .next t => stepN k t
      | .fault r => .fault r
      | .refused r => .refused r

/-- Weak fairness (R355): each of the three agents is again and again either chosen or without an enabled step. -/
def WeaklyFair (run : Nat → State) : Prop :=
  ∀ a, a = .controller ∨ a = .peripheral ∨ a = .wire → ∀ n, ∃ m, n ≤ m ∧ (enabled a (run m) = false ∨ (run m).inputs.turn = a)

end Sys2Proof.Machine
end

