-- ==== Sys2Proof/Certificates/Slice0/Obligations.lean ====
section
/-! DEFINITION. The statements for the provers. Each docstring names the rules of the spec a statement formalises; where
a clause rests on a choice of the model's own, it names the log entry. -/

open Sys2Proof Sys2Proof.Machine

/-! ### The requests, at `P_VALIDATE` -/

/-- R178: the reply is the identity constant; nothing else of the machine changes but the count (R176), the sequencer
and the event port. -/
def Obligations.GetIdentityRepliesWithTheIdentityConstant : Prop :=
  (∀ s : State, exec .getIdentity s =
    .next { s with per := { s.per with
      pRetry := 0, pRsp := 0xC819000A#32, pstep := .send, out := { s.per.out with port := [] } } }) ∧
  ser .little (packetOf 0xC819000A#32) = ⟨0x0A#8, 0x00#8, 0x19#8, 0xC8#8⟩

/-- R179: the reply is the unit constant. -/
def Obligations.GetUnitRepliesWithTheUnitConstant : Prop :=
  (∀ s : State, exec .getUnit s =
    .next { s with per := { s.per with
      pRetry := 0, pRsp := 0xC819000B#32, pstep := .send, out := { s.per.out with port := [] } } }) ∧
  ser .little (packetOf 0xC819000B#32) = ⟨0x0B#8, 0x00#8, 0x19#8, 0xC8#8⟩

/-- R180: the dispatch leads to `P_SAMPLE`; there the source is asked once, its value goes into the reply unmodified;
and no other step asks it. The sample `v` is a free value: the clause holds for every one. -/
def Obligations.GetMeasurementTakesOneSampleUnmodified : Prop :=
  (∀ s : State, exec .getMeasurement s =
    .next { s with per := { s.per with
      pRetry := 0, pstep := .sample, out := { s.per.out with port := [] } } }) ∧
  (∀ (s : State) (v : BitVec 16), Running .peripheral s → s.per.pstep = .sample → s.inputs.advance.sample = v →
    step s = .next { s with
      per := { s.per with
        pSmp := v, pRsp := 0xC819#16 ++ v, pstep := .send, out := { s.per.out with port := [] } }
      inputs := { s.inputs.advance with samples := s.inputs.samples.tail } }) ∧
  (∀ s t : State, step s = .next t → ¬(s.inputs.turn = .peripheral ∧ s.per.pstep = .sample) →
    t.inputs.samples = s.inputs.samples)

/-- R181: an unrecognized command is logged and nothing more; the count is zero by R176. -/
def Obligations.UnrecognizedCommandIsOnlyLogged : Prop :=
  ∀ (s : State) (c : Half), c ≠ 0x0001#16 → c ≠ 0x0002#16 → c ≠ 0x0003#16 →
    exec (.unrecognized c) s =
      .next { s with per := { s.per with
        pRetry := 0, pstep := .enableIn,
        out := { port := [⟨2#3, c⟩], log := s.per.out.log ++ [.eUnknownCmd c] } } }

/-- R177: noise is counted and not answered; above 25 the budget is spent, the count is cleared if the parameter says
so, and the recovery steps follow. The payload `p` plays no part. -/
def Obligations.NoiseIsCountedAndNotAnswered : Prop :=
  ∀ (s : State) (h p : Half), h ≠ 0xC819#16 →
    exec (.noise h p) s =
      if 25 < satInc s.params.retryW s.per.pRetry then
        .next { s with per := { s.per with
          pRetry := if s.params.perClearOnReset then 0 else satInc s.params.retryW s.per.pRetry,
          pstep := .reset,
          out := { port := [⟨0#3, h⟩, ⟨3#3, 0#16⟩], log := s.per.out.log ++ [.eFrame h, .eBudget] } } }
      else
        .next { s with per := { s.per with
          pRetry := satInc s.params.retryW s.per.pRetry,
          pstep := .enableIn,
          out := { port := [⟨0#3, h⟩], log := s.per.out.log ++ [.eFrame h] } } }

/-- R176: every well-framed request sets the count to zero, whatever its payload, and the payload picks one of the four
rules R178 to R181. -/
def Obligations.WellFramedRequestsClearTheCount : Prop :=
  ∀ (s : State) (w : Word), headerOf w = 0xC819#16 →
    (∃ t, exec (decodeRequestWord w) s = .next t ∧ t.per.pRetry = 0) ∧
    decodeRequestWord w =
      (if payloadOf w = 0x0001#16 then .getIdentity
       else if payloadOf w = 0x0002#16 then .getUnit
       else if payloadOf w = 0x0003#16 then .getMeasurement
       else .unrecognized (payloadOf w))

/-- The frame of the five request rows: the controller, the link with both its buffers, the inputs and the parameters
are as before, and of the peripheral only the count, the sequencer, the event output and, for the two constant replies,
`p_rsp` may change. -/
def Obligations.RequestsChangeOnlyThePeripheralsControl : Prop :=
  ∀ (i : Instr) (s : State), i.context = .request →
    ∃ t, exec i s = .next t ∧
      t.params = s.params ∧ t.ctrl = s.ctrl ∧ t.link = s.link ∧ t.inputs = s.inputs ∧
      t.per.rstN = s.per.rstN ∧ t.per.pReq = s.per.pReq ∧ t.per.pSmp = s.per.pSmp ∧
      t.per.pOcnt = s.per.pOcnt ∧ t.per.pIcnt = s.per.pIcnt ∧
      (i ≠ .getIdentity → i ≠ .getUnit → t.per.pRsp = s.per.pRsp)

/-- R187: of the packets the peripheral takes, exactly the well-framed recognized ones lead on to a reply
(`P_SEND`, or `P_SAMPLE` before it). -/
def Obligations.OnlyRecognizedRequestsAreAnswered : Prop :=
  ∀ s : State, ∃ t, exec s.request s = .next t ∧
    ((t.per.pstep = .send ∨ t.per.pstep = .sample) ↔ (s.per.hdrOk = true ∧ s.per.known = true))

/-! ### The responses, at `C_VALIDATE` -/

/-- R137: DetectDevice. -/
def Obligations.DetectDeviceJudgesTheIdentity : Prop :=
  ∀ s : State, s.ctrl.phase = .detectDevice →
    exec .rspIdentity s =
      .next { s with ctrl := { s.ctrl with
        phase := .readUnit, cRetry := 0, cstep := .post, rdValid := false,
        out := { s.ctrl.out with port := [] } } } ∧
    ∀ p : Half, p ≠ 0x000A#16 →
      exec (.rspMismatchDetect p) s =
        .next { s with ctrl := { s.ctrl with
          cRetry := satInc s.params.retryW s.ctrl.cRetry, cstep := .post, rdValid := false,
          out := { port := [⟨1#3, p⟩], log := s.ctrl.out.log ++ [.eSemantic p] } } }

/-- R138: ReadUnit. -/
def Obligations.ReadUnitJudgesTheUnit : Prop :=
  ∀ s : State, s.ctrl.phase = .readUnit →
    exec .rspUnit s =
      .next { s with ctrl := { s.ctrl with
        phase := .readMeasurement, cRetry := 0, cstep := .post, rdValid := false,
        out := { s.ctrl.out with port := [] } } } ∧
    ∀ p : Half, p ≠ 0x000B#16 →
      exec (.rspMismatchUnit p) s =
        .next { s with ctrl := { s.ctrl with
          cRetry := satInc s.params.retryW s.ctrl.cRetry, cstep := .post, rdValid := false,
          out := { port := [⟨1#3, p⟩], log := s.ctrl.out.log ++ [.eSemantic p] } } }

/-- R139: ReadMeasurement takes every payload; the two parts go to the registers, the pulse and the event. -/
def Obligations.ReadMeasurementEmitsTheReading : Prop :=
  ∀ (s : State) (m : Half), s.ctrl.phase = .readMeasurement →
    exec (.rspMeasurement m) s =
      .next { s with ctrl := { s.ctrl with
        cRetry := 0, cstep := .post, rdValid := true,
        rdWhole := BitVec.ofInt 16 (Int.tdiv m.toInt 100),
        rdFrac := BitVec.ofNat 7 (m.toInt - 100 * Int.tdiv m.toInt 100).natAbs,
        out :=
          { port := [⟨4#3, m⟩],
            log := s.ctrl.out.log ++
              [.reading (Int.tdiv m.toInt 100) (m.toInt - 100 * Int.tdiv m.toInt 100).natAbs] } } }

/-- R136: a wrong header is counted in every phase, whatever the payload; no reading is emitted. -/
def Obligations.BadlyFramedResponsesAreCounted : Prop :=
  ∀ (s : State) (h p : Half), h ≠ 0xC819#16 →
    let t : State := { s with ctrl := { s.ctrl with
      cRetry := satInc s.params.retryW s.ctrl.cRetry, cstep := .post, rdValid := false,
      out := { port := [⟨0#3, h⟩], log := s.ctrl.out.log ++ [.eFrame h] } } }
    (s.ctrl.phase = .detectDevice → exec (.rspNoiseDetect h p) s = .next t) ∧
    (s.ctrl.phase = .readUnit → exec (.rspNoiseUnit h p) s = .next t) ∧
    (s.ctrl.phase = .readMeasurement → exec (.rspNoiseMeasurement h p) s = .next t)

/-- The model's choice, log entry 7: a response row is refused in a phase other than its context, where the decoder
never gives it (R110, R114). -/
def Obligations.ResponsesOutOfPhaseAreRefused : Prop :=
  ∀ (i : Instr) (s : State) (ph : Phase), i.context = .response ph → s.ctrl.phase ≠ ph →
    exec i s = .refused .outOfContext

/-- The frame of the eight response rows in their phase: the peripheral, the link with both its buffers, the inputs and
the parameters are as before; so are `sel`, the packet registers and, but for a measurement, the reading registers. -/
def Obligations.ResponsesChangeOnlyTheControllersControl : Prop :=
  ∀ (i : Instr) (s : State), i.context = .response s.ctrl.phase →
    ∃ t, exec i s = .next t ∧
      t.params = s.params ∧ t.per = s.per ∧ t.link = s.link ∧ t.inputs = s.inputs ∧
      t.ctrl.cstep = .post ∧ t.ctrl.rstN = s.ctrl.rstN ∧ t.ctrl.sel = s.ctrl.sel ∧
      t.ctrl.cTxp = s.ctrl.cTxp ∧ t.ctrl.cRxp = s.ctrl.cRxp ∧
      ((∀ m, i ≠ .rspMeasurement m) →
        t.ctrl.rdWhole = s.ctrl.rdWhole ∧ t.ctrl.rdFrac = s.ctrl.rdFrac ∧ t.ctrl.rdValid = false)

/-- R145: the header is checked first and alone, a packet wrong in both raises `E_FRAME` only, and one validation
changes the count once: plus one (saturating, R33), or to zero. -/
def Obligations.ValidationChecksTheHeaderFirst : Prop :=
  (∀ (s : State) (w : Word), ∃ t, exec (decodeResponseWord s.ctrl.phase w) s = .next t ∧
    (t.ctrl.cRetry = satInc s.params.retryW s.ctrl.cRetry ∨ t.ctrl.cRetry = 0) ∧
    (headerOf w ≠ 0xC819#16 → t.ctrl.cRetry = satInc s.params.retryW s.ctrl.cRetry ∧
      t.ctrl.out.log = s.ctrl.out.log ++ [.eFrame (headerOf w)]) ∧
    (headerOf w = 0xC819#16 → ∃ evs, t.ctrl.out.log = s.ctrl.out.log ++ evs ∧ ∀ h, Event.eFrame h ∉ evs)) ∧
  (∀ (s : State) (w w' : Word), headerOf w = headerOf w' → headerOf w ≠ 0xC819#16 →
    exec (decodeResponseWord s.ctrl.phase w) s = exec (decodeResponseWord s.ctrl.phase w') s)

/-- R38 with R136 to R139: a validation succeeds exactly when both named conditions hold. -/
def Obligations.ValidationSucceedsWhenBothConditionsHold : Prop :=
  ∀ s : State, s.params.Ok → ∃ t, exec s.response s = .next t ∧
    (t.ctrl.cRetry = 0 ↔ (s.ctrl.hdrOk = true ∧ s.ctrl.payOk = true))

/-! ### Packets as bits -/

/-- Decoding the bytes of any well-formed instruction, in either byte order and with more bytes behind them, gives the
instruction back, with every operand. -/
def Obligations.EncodedInstructionsDecodeBack : Prop :=
  ∀ i : Instr, i.wellFormed = true → ∀ (o : ByteOrder) (rest : List Byte),
    decode i.context o ((encodeBytes o i).toList ++ rest) = .ok (i, rest)

/-- Any four bytes are one well-formed instruction of the context they are read in, and encoding it gives them back. -/
def Obligations.EveryFourBytesAreOneInstruction : Prop :=
  ∀ (ctx : Context) (o : ByteOrder) (b : Bytes4) (rest : List Byte),
    ∃ i, decode ctx o (b.toList ++ rest) = .ok (i, rest) ∧
      i.wellFormed = true ∧ i.context = ctx ∧ encodeBytes o i = b

/-- R114: on every word and in every context the decoder gives the first row of the opcode table that matches. -/
def Obligations.DecoderFollowsTheOpcodeTable : Prop :=
  ∀ (ctx : Context) (w : Word), (firstRow ctx w).map OpRow.mnemonic = some (decodeWord ctx w).mnemonic

/-- A stream of fewer than four bytes holds no packet yet (R76, R77, R173). -/
def Obligations.ShortStreamsHoldNoPacket : Prop :=
  ∀ (ctx : Context) (o : ByteOrder) (bs : List Byte), bs.length < 4 →
    decode ctx o bs = .error (.short bs.length)

/-- Words of the spec, written out as wire bytes (R107, R109, R111), decode to the instructions they stand for. -/
def Obligations.SpecWordsDecode : Prop :=
  decode .request .little [0x01#8, 0x00#8, 0x19#8, 0xC8#8] = .ok (.getIdentity, []) ∧
  decode .request .big [0x00#8, 0x02#8, 0xC8#8, 0x19#8] = .ok (.getUnit, []) ∧
  decode .request .little [0x09#8, 0x00#8, 0x19#8, 0xC8#8] = .ok (.unrecognized 0x0009#16, []) ∧
  decode (.response .detectDevice) .little [0x0A#8, 0x00#8, 0x19#8, 0xC8#8] = .ok (.rspIdentity, []) ∧
  decode (.response .readMeasurement) .big [0x09#8, 0x29#8, 0xC8#8, 0x19#8] = .ok (.rspMeasurement 0x0929#16, [])

/-- R104: the place of every byte of a packet, and the worked example. -/
def Obligations.SerialiserPlacesEveryByte : Prop :=
  (∀ h p : Half,
    ser .little ⟨h, p⟩ =
      ⟨p.extractLsb' 0 8, p.extractLsb' 8 8, h.extractLsb' 0 8, h.extractLsb' 8 8⟩ ∧
    ser .big ⟨h, p⟩ =
      ⟨p.extractLsb' 8 8, p.extractLsb' 0 8, h.extractLsb' 8 8, h.extractLsb' 0 8⟩) ∧
  ser .little ⟨0xC819#16, 0x0001#16⟩ = ⟨0x01#8, 0x00#8, 0x19#8, 0xC8#8⟩ ∧
  ser .big ⟨0xC819#16, 0x0001#16⟩ = ⟨0x00#8, 0x01#8, 0xC8#8, 0x19#8⟩

/-- R105: the deserialiser, total, and inverse to the serialiser both ways. -/
def Obligations.DeserialiserInvertsTheSerialiser : Prop :=
  (∀ b0 b1 b2 b3 : Byte,
    deser .little ⟨b0, b1, b2, b3⟩ = ⟨b3 ++ b2, b1 ++ b0⟩ ∧ deser .big ⟨b0, b1, b2, b3⟩ = ⟨b2 ++ b3, b0 ++ b1⟩) ∧
  (∀ (o : ByteOrder) (p : Packet), deser o (ser o p) = p) ∧
  (∀ (o : ByteOrder) (b : Bytes4), ser o (deser o b) = b)

/-- R74, R338: what a role of one byte order sends is never well framed for a role of the other. -/
def Obligations.DifferentByteOrdersNeverFrame : Prop :=
  ∀ (o o' : ByteOrder) (payload : Half), o ≠ o' →
    framed (deser o' (ser o ⟨Config.sentinel, payload⟩)).word = false

/-! ### Arithmetic -/

/-- R253: the ranges of the two parts, and that the registers hold them exactly. -/
def Obligations.DecodeRangesFitTheRegisters : Prop :=
  ∀ m : Half,
    -327 ≤ decodeWhole (asSigned16 m) ∧ decodeWhole (asSigned16 m) ≤ 327 ∧
    decodeFrac (asSigned16 m) ≤ 99 ∧
    -99 ≤ trem (asSigned16 m) 100 ∧ trem (asSigned16 m) 100 ≤ 99 ∧
    (BitVec.ofInt 16 (decodeWhole (asSigned16 m))).toInt = decodeWhole (asSigned16 m) ∧
    (BitVec.ofNat 7 (decodeFrac (asSigned16 m))).toNat = decodeFrac (asSigned16 m)

/-- R254: the sign is carried by the whole part alone; only readings from -99 to -1 lose it, and -50 is the same pair
as 50. -/
def Obligations.DecodeLosesOnlySmallNegativeSigns : Prop :=
  (∀ m : Half, ¬(-99 ≤ asSigned16 m ∧ asSigned16 m ≤ -1) →
    asSigned16 m = decodeWhole (asSigned16 m) * 100 +
      (if decodeWhole (asSigned16 m) < 0 then -1 else 1) * (decodeFrac (asSigned16 m) : Int)) ∧
  (∀ m : Half, -99 ≤ asSigned16 m → asSigned16 m ≤ -1 → decodeWhole (asSigned16 m) = 0) ∧
  (decodeWhole (-50), decodeFrac (-50)) = (0, 50) ∧ (decodeWhole 50, decodeFrac 50) = (0, 50)

/-- R255: the table of corner values, by payload bits. -/
def Obligations.DecodeCornerValues : Prop :=
  ∀ r ∈ ([(0x0000#16, 0, 0), (0x0001#16, 0, 1), (0x000A#16, 0, 10), (0x0063#16, 0, 99), (0x0064#16, 1, 0),
      (0x0929#16, 23, 45), (0x7FFF#16, 327, 67), (0xFFFF#16, 0, 1), (0xFFCE#16, 0, 50), (0xFF9D#16, 0, 99),
      (0xFF9C#16, -1, 0), (0xFF9B#16, -1, 1), (0xF6D7#16, -23, 45), (0x8000#16, -327, 68)] :
      List (Half × Int × Nat)),
    decodeWhole (asSigned16 r.1) = r.2.1 ∧ decodeFrac (asSigned16 r.1) = r.2.2

/-- R17, R257: the retry count goes up by one and stops at its greatest value; it never wraps. -/
def Obligations.RetryCountSaturates : Prop :=
  ∀ w count : Nat, count ≤ 2 ^ w - 1 →
    satInc w count ≤ 2 ^ w - 1 ∧ count ≤ satInc w count ∧
    (count < 2 ^ w - 1 → satInc w count = count + 1) ∧ (count = 2 ^ w - 1 → satInc w count = count)

/-! ### The controller's micro-steps -/

/-- R131: the request is built from the phase alone. -/
def Obligations.ControllerBuildsThePhasesRequest : Prop :=
  ∀ s : State, Running .controller s → s.ctrl.cstep = .build →
    step s = .next { s.advance with ctrl := { s.ctrl.begin with
      cTxp := (match s.ctrl.phase with
        | .detectDevice => 0xC8190001#32
        | .readUnit => 0xC8190002#32
        | .readMeasurement => 0xC8190003#32)
      cstep := .select } }

/-- R132, R140, R263: select is raised before the send and dropped after the receive, on the register and on the wire,
and no buffer is touched. -/
def Obligations.ControllerDrivesSelect : Prop :=
  ∀ s : State, Running .controller s →
    (s.ctrl.cstep = .select →
      step s = .next { s.advance with
        ctrl := { s.ctrl.begin with sel := true, cstep := .send }
        link := { s.link with selW := true } }) ∧
    (s.ctrl.cstep = .deselect →
      step s = .next { s.advance with
        ctrl := { s.ctrl.begin with sel := false, cstep := .validate }
        link := { s.link with selW := false } })

/-- R134, R142, R143, R221: the two delays and the controller's transport reset move the sequencer and nothing else: no
register, no buffer, nothing of the peripheral. -/
def Obligations.ControllerDelaysAndResetMoveOnlyTheSequencer : Prop :=
  ∀ s : State, Running .controller s →
    (s.ctrl.cstep = .settle → step s = .next { s.advance with ctrl := { s.ctrl.begin with cstep := .recv } }) ∧
    (s.ctrl.cstep = .reset → step s = .next { s.advance with ctrl := { s.ctrl.begin with cstep := .sleep } }) ∧
    (s.ctrl.cstep = .sleep → step s = .next { s.advance with ctrl := { s.ctrl.begin with cstep := .build } })

/-- R141: above 5, and only above 5, the phase and the count go back and the transport reset follows. -/
def Obligations.PostCheckFiresAboveFive : Prop :=
  ∀ s : State, Running .controller s → s.ctrl.cstep = .post →
    step s =
      if 5 < s.ctrl.cRetry then
        .next { s.advance with ctrl := { s.ctrl.begin with
          phase := .detectDevice, cRetry := 0, cstep := .reset,
          out := { port := [⟨3#3, 0#16⟩], log := s.ctrl.out.log ++ [.eBudget] } } }
      else .next { s.advance with ctrl := { s.ctrl.begin with cstep := .sleep } }

/-- R133, R213, R263, R265: a `send` is an issue, four beats and a completion, and delivers the four bytes of `c_txp` in
order to an inbound buffer that is enabled and has room. -/
def Obligations.SendDeliversTheRequestBytes : Prop :=
  ∀ (s : State) (rest : List Agent), Running .controller s →
    s.ctrl.cstep = .send → s.link.xfer = .idle → s.link.selW = true → s.link.inEn = true →
    s.link.inFifo.length + 4 ≤ s.params.inDepth →
    s.inputs.sched = [.controller, .wire, .wire, .wire, .wire, .controller] ++ rest →
    ∃ t, stepN 6 s = .next t ∧
      t.ctrl = s.ctrl.sent ∧ t.per = s.per ∧ t.params = s.params ∧ t.inputs.sched = rest ∧
      t.link.inFifo = s.link.inFifo ++ (ser s.params.cOrder (packetOf s.ctrl.cTxp)).toList ∧
      t.link.xfer = .idle ∧ t.link.selW = true ∧ t.link.inEn = true ∧ t.link.outEn = s.link.outEn ∧
      t.link.overrun = false ∧
      t.link.outFifo = (if s.link.outEn then s.link.outFifo.drop 4 else s.link.outFifo)

/-- R135, R214, R264, R345: with the reply queued when the `receive` is issued (premise H1), the controller's four beats
return exactly the reply; with nothing to clock out, they return four underflow draws, and under the premise of R266 on
them (no packet among them) the missing reply is noticed. The fill and the underflow bytes are free values within the
two predicates. -/
def Obligations.ReceiveReturnsTheQueuedReply : Prop :=
  (∀ (s : State) (reply : Bytes4) (rest : List Agent), Running .controller s →
    s.ctrl.cstep = .recv → s.link.xfer = .idle → s.link.selW = true → ReplyReady reply s →
    (s.link.inEn = true → s.link.inFifo.length + 4 ≤ s.params.inDepth) →
    s.inputs.sched = [.controller, .wire, .wire, .wire, .wire, .controller] ++ rest →
    ∃ t, stepN 6 s = .next t ∧
      t.ctrl = s.ctrl.received s.params.cOrder reply ∧ t.ctrl.cRxp = (deser s.params.cOrder reply).word ∧
      t.per = s.per ∧ t.params = s.params ∧ t.inputs.sched = rest ∧
      t.link.outFifo = [] ∧ t.link.xfer = .idle ∧ t.link.overrun = false ∧
      (s.link.inEn = false → t.link.inFifo = s.link.inFifo) ∧
      (s.link.inEn = true → ∃ fill : Bytes4, t.link.inFifo = s.link.inFifo ++ fill.toList)) ∧
  (∀ (s : State) (rest : List Agent), Running .controller s →
    s.ctrl.cstep = .recv → s.link.xfer = .idle → s.link.selW = true →
    (s.link.outEn = false ∨ s.link.outFifo = []) →
    (s.link.inEn = true → s.link.inFifo.length + 4 ≤ s.params.inDepth) →
    s.inputs.sched = [.controller, .wire, .wire, .wire, .wire, .controller] ++ rest →
    ∃ t, stepN 6 s = .next t ∧ ∃ u : Bytes4, t.inputs.underflowsDrawn.now = u.toList ∧
      t.ctrl = s.ctrl.received s.params.cOrder u ∧ t.link.outFifo = s.link.outFifo ∧ t.link.xfer = .idle ∧
      s.params.underflowOk.allows u.toList = true ∧
      (noPacketIn s.params.cOrder t.inputs.underflowsDrawn.now = true → framed t.ctrl.cRxp = false))

/-- R150: `CtrlCycle` is the composition of the micro-steps, with the same state, events and operations, for every four
bytes the cycle's `receive` returns. -/
def Obligations.ControllerCycleIsItsMicroSteps : Prop :=
  ∀ (s : State) (b : Bytes4), s.ctrl.rstN = true → s.ctrl.cstep = .build →
    let r := ctrlCycle s.params.retryW s.params.cOrder s.ctrl.phase s.ctrl.cRetry b
    ∃ k t, k ≤ 10 ∧ controllerAloneRun b k s = some (t, r.ops) ∧
      t.ctrl.cstep = .build ∧ t.ctrl.phase = r.phase ∧ t.ctrl.cRetry = r.retry ∧
      t.ctrl.out.log = s.ctrl.out.log ++ r.events ∧ t.ctrl.sel = false ∧
      t.per = s.per ∧ t.link = s.link ∧ t.params = s.params ∧ t.inputs = s.inputs

/-- R152: from a count of zero, six failing cycles in a row, of either kind, bring the reset at the end of the sixth
and not before; any success puts the count to zero and brings none. -/
def Obligations.SixFailuresInARowReset : Prop :=
  (∀ (w : Nat) (o : ByteOrder) (ph : Phase) (bs : List Bytes4), 5 ≤ w → bs.length = 6 →
    (∀ b ∈ bs, failsIn o ph b = true) →
    (ctrlTrace w o ph 0 bs).map (fun r => (r.phase, r.retry, r.ops.contains .reset)) =
      [(ph, 1, false), (ph, 2, false), (ph, 3, false), (ph, 4, false), (ph, 5, false), (.detectDevice, 0, true)]) ∧
  (∀ (w : Nat) (o : ByteOrder) (ph : Phase) (count : Nat) (b : Bytes4), failsIn o ph b = false →
    (ctrlCycle w o ph count b).retry = 0 ∧ (ctrlCycle w o ph count b).ops.contains .reset = false)

/-! ### The peripheral's micro-steps -/

/-- R171: the block turns both kinds of buffering on, once, after reset. -/
def Obligations.PeripheralTurnsBufferingOn : Prop :=
  ∀ s : State, Running .peripheral s →
    (s.per.pstep = .initIn →
      step s = .next { s.advance with
        per := { s.per.begin with pstep := .initOut }, link := { s.link with inEn := true } }) ∧
    (s.per.pstep = .initOut →
      step s = .next { s.advance with
        per := { s.per.begin with pstep := .checkOut }, link := { s.link with outEn := true } })

/-- R172: anything still queued outbound skips the cycle. -/
def Obligations.PeripheralSkipsUntilTheReplyHasDrained : Prop :=
  ∀ s : State, Running .peripheral s → s.per.pstep = .checkOut →
    step s = .next { s.advance with per := { s.per.begin with
      pOcnt := s.link.outFifo.length
      pstep := if s.link.outFifo.length ≠ 0 then .sleep else .checkIn } }

/-- R173: a whole packet is taken, anything less waits. -/
def Obligations.PeripheralWaitsForAWholePacket : Prop :=
  ∀ s : State, Running .peripheral s → s.per.pstep = .checkIn →
    step s = .next { s.advance with per := { s.per.begin with
      pIcnt := s.link.inFifo.length
      pstep := if 4 ≤ s.link.inFifo.length then .recv else .sleep } }

/-- R77, R174, R175: the four oldest bytes become the request and leave the buffer; then inbound buffering goes off
with what is pending left in place. -/
def Obligations.PeripheralTakesTheFourOldestBytes : Prop :=
  (∀ (s : State) (b0 b1 b2 b3 : Byte) (rest : List Byte), Running .peripheral s → s.per.pstep = .recv →
    s.link.inFifo = b0 :: b1 :: b2 :: b3 :: rest →
    step s = .next { s.advance with
      per := { s.per.begin with pReq := (deser s.params.pOrder ⟨b0, b1, b2, b3⟩).word, pstep := .disableIn }
      link := { s.link with inFifo := rest } }) ∧
  (∀ s : State, Running .peripheral s → s.per.pstep = .disableIn →
    step s = .next { s.advance with
      per := { s.per.begin with pstep := .validate }, link := { s.link with inEn := false } })

/-- R182, R215, R268: the reply's four bytes are queued behind what is there, wherever the transport's `send` is
enabled. -/
def Obligations.PeripheralQueuesTheReplyBytes : Prop :=
  ∀ s : State, Running .peripheral s → s.per.pstep = .send →
    s.link.outEn = true → s.link.outFifo.length + 4 ≤ s.params.outDepth →
    step s = .next { s.advance with
      per := { s.per.begin with pstep := .enableIn }
      link := { s.link with
        outFifo := s.link.outFifo ++ (ser s.params.pOrder (packetOf s.per.pRsp)).toList } }

/-- R183 to R186 with R269, R270: the recovery resets the transport first and enables outbound buffering second; every
packet ends with inbound buffering on; every cycle ends in the sleep. -/
def Obligations.PeripheralRecoversInOrder : Prop :=
  ∀ s : State, Running .peripheral s →
    (s.per.pstep = .reset →
      step s = .next { s.advance with
        per := { s.per.begin with pstep := .enableOut }
        link := { s.link with inFifo := [], outFifo := [], outEn := false } }) ∧
    (s.per.pstep = .enableOut →
      step s = .next { s.advance with
        per := { s.per.begin with pstep := .enableIn }, link := { s.link with outEn := true } }) ∧
    (s.per.pstep = .enableIn →
      step s = .next { s.advance with
        per := { s.per.begin with pstep := .sleep }, link := { s.link with inEn := true } }) ∧
    (s.per.pstep = .sleep →
      step s = .next { s.advance with per := { s.per.begin with pstep := .checkOut } })

/-- R195: `PerCycle` is the composition of the micro-steps, with the same count, events and operations, for all answers
of the collaborators. -/
def Obligations.PeripheralCycleIsItsMicroSteps : Prop :=
  ∀ (s : State) (a : PerAnswers), s.per.rstN = true → s.per.pstep = .checkOut →
    let r := perCycle s.params.retryW s.params.perClearOnReset s.params.pOrder s.per.pRetry a
    ∃ k t, k ≤ 10 ∧ peripheralAloneRun a k s = some (t, r.ops) ∧
      t.per.pstep = .checkOut ∧ t.per.pRetry = r.retry ∧
      t.per.out.log = s.per.out.log ++ r.events ∧
      t.ctrl = s.ctrl ∧ t.link = s.link ∧ t.params = s.params ∧ t.inputs = s.inputs

/-- R197: from a count of zero, 26 badly framed packets in a row bring the transport reset at the 26th and not before,
whether or not the count is then cleared; any well-framed packet puts the count to zero and brings none. -/
def Obligations.TwentySixNoisePacketsReset : Prop :=
  (∀ (w : Nat) (clear : Bool) (o : ByteOrder) (as : List PerAnswers), 5 ≤ w → as.length = 26 →
    (∀ a ∈ as, a.takesPacket = true ∧ (deser o a.b).header ≠ 0xC819#16) →
    (perTrace w clear o 0 as).map (fun r => r.ops.contains .reset) = List.replicate 25 false ++ [true]) ∧
  (∀ (w : Nat) (clear : Bool) (o : ByteOrder) (count : Nat) (a : PerAnswers), a.takesPacket = true →
    (deser o a.b).header = 0xC819#16 →
    (perCycle w clear o count a).retry = 0 ∧ (perCycle w clear o count a).ops.contains .reset = false)

/-! ### The link -/

/-- R265, R267: one beat moves one byte each way. Down goes the transfer's own byte, or a fill draw; up comes the head
of the outbound buffer, or an underflow draw where it is off or empty. The inbound buffer takes the byte if it is on
and has room, raises `overrun` if it is on and full, and loses it if it is off (lost and not delayed: D11, log entry
15). The two draws are within their predicates (R266). Nothing else changes. -/
def Obligations.BeatMovesOneByteEachWay : Prop :=
  ∀ s : State, Running .wire s → s.link.selW = true →
    let down (d : Byte) (t : State) : Prop :=
      t.link.inFifo =
        (if s.link.inEn = true ∧ s.link.inFifo.length < s.params.inDepth then s.link.inFifo ++ [d]
         else s.link.inFifo) ∧
      (t.link.overrun = true ↔ (s.link.inEn = true ∧ s.params.inDepth ≤ s.link.inFifo.length))
    let frame (t : State) : Prop :=
      t.link.outFifo = (if s.link.outEn then s.link.outFifo.tail else s.link.outFifo) ∧
      t.link.inEn = s.link.inEn ∧ t.link.outEn = s.link.outEn ∧ t.link.selW = s.link.selW ∧
      t.ctrl = s.ctrl ∧ t.per = s.per ∧ t.params = s.params
    (∀ (b : Bytes4) (i : Nat) (d : Byte), s.link.xfer = .send b i → b.toList[i]? = some d →
      ∃ t, step s = .next t ∧ t.link.xfer = .send b (i + 1) ∧ down d t ∧ frame t) ∧
    (∀ acc : List Byte, s.link.xfer = .recv acc → acc.length < 4 →
      let n := s.inputs.advance.beginBeat acc.isEmpty
      ∃ t, step s = .next t ∧
        t.link.xfer = .recv (acc ++
          [if s.link.outEn then s.link.outFifo.headD (n.underflow s.params.underflowOk)
           else n.underflow s.params.underflowOk]) ∧
        down (n.fill s.params.fillOk) t ∧ frame t)

/-- R267, U3: a run in which a byte met a full inbound buffer is faulted: no later step answers anything else. -/
def Obligations.OverrunFaultsEveryLaterStep : Prop :=
  ∀ s : State, s.link.overrun = true → step s = .fault .inboundOverrun

/-- R54, R262, R265: an agent without an enabled step is held: its turn changes nothing but the inputs of the schedule.
(For the peripheral the two steps whose disabled case is a contract violation are left out: log entry 9.) -/
def Obligations.HeldAgentsChangeNothing : Prop :=
  ∀ (a : Agent) (s : State), Running a s → enabled a s = false →
    (a = .peripheral → s.per.pstep ≠ .recv ∧ s.per.pstep ≠ .send) →
    step s = .next s.advance

/-! ### The whole machine -/

/-- R331, R336, with the model's choices of log entries 1, 5 for what the spec gives no value. -/
def Obligations.ResetLeavesTheStateOfTheSpec : Prop :=
  State.reset.ctrl.phase = .detectDevice ∧ State.reset.ctrl.cRetry = 0 ∧ State.reset.ctrl.cstep = .build ∧
  State.reset.ctrl.sel = false ∧ State.reset.ctrl.rdValid = false ∧ State.reset.ctrl.out.port = [] ∧
  State.reset.per.pRetry = 0 ∧ State.reset.per.pstep = .initIn ∧ State.reset.per.out.port = [] ∧
  State.reset.link.inFifo = [] ∧ State.reset.link.outFifo = [] ∧ State.reset.link.inEn = false ∧
  State.reset.link.outEn = false ∧ State.reset.link.selW = false ∧ State.reset.link.xfer = .idle ∧
  State.reset.link.overrun = false ∧ State.reset.params.Ok

/-- R331: a pin driven low resets its block and touches nothing else, one driven high lets the block go on from there;
while `rst_n` is low a block takes no step of its own: at its turn its registers hold their reset values, no request,
event or reading is presented, and nothing outside it changes. What is kept, and the values the spec does not give: log
entries 1, 6. -/
def Obligations.BlocksAreHeldInReset : Prop :=
  (∀ (s : State) (c p : Bool), (s.ctrl.rstN = true ∨ s.link.xfer = .idle) → s.link.overrun = false →
    s.inputs.turn = .platform c p →
    step s = .next { s.advance with
      ctrl := if c then { s.ctrl with rstN := true }
        else { Ctrl.atReset with rstN := false, out := ⟨[], s.ctrl.out.log⟩ }
      per := if p then { s.per with rstN := true }
        else { Per.atReset with rstN := false, out := ⟨[], s.per.out.log⟩ } }) ∧
  (∀ s : State, s.ctrl.rstN = false → s.link.xfer = .idle → s.link.overrun = false →
    s.inputs.turn = .controller →
    ∃ t, step s = .next t ∧ t.ctrl = { Ctrl.atReset with rstN := false, out := ⟨[], s.ctrl.out.log⟩ } ∧
      t.ctrl.op s.params.cOrder = none ∧ t.per = s.per ∧ t.link = s.link ∧ t.params = s.params) ∧
  (∀ s : State, (s.ctrl.rstN = true ∨ s.link.xfer = .idle) → s.per.rstN = false → s.link.overrun = false →
    s.inputs.turn = .peripheral →
    ∃ t, step s = .next t ∧ t.per = { Per.atReset with rstN := false, out := ⟨[], s.per.out.log⟩ } ∧
      t.per.op s.params.pOrder = none ∧ t.ctrl = s.ctrl ∧ t.link = s.link ∧ t.params = s.params)

/-- A step runs the decoded request: at `P_VALIDATE` the peripheral's turn is `exec` of the instruction that the word in
`p_req` decodes to, once the schedule has moved on. -/
def Obligations.StepRunsTheDecodedRequest : Prop :=
  ∀ (s : State) (i : Instr), Running .peripheral s → s.per.pstep = .validate →
    decodeWord .request s.per.pReq = i → step s = exec i s.advance

/-- A step runs the decoded response: at `C_VALIDATE` the controller's turn is `exec` of the instruction that the word in
`c_rxp` decodes to in the phase, once the schedule has moved on. -/
def Obligations.StepRunsTheDecodedResponse : Prop :=
  ∀ (s : State) (i : Instr), Running .controller s → s.ctrl.cstep = .validate →
    decodeWord (.response s.ctrl.phase) s.ctrl.cRxp = i → step s = exec i s.advance

/-- R55: the phase goes forward one place at a time, or back to the first when the budget is spent; the hardware reset
(R331) is the other statement's, so the block is out of reset before and after the step. -/
def Obligations.PhaseMovesForwardOrBackToTheFirst : Prop :=
  ∀ s t : State, s.ctrl.rstN = true → t.ctrl.rstN = true → step s = .next t → PhaseMoves s t

/-- R30, R313: each role touches only its own registers; the wire touches no register; the platform alone drives the
reset pins, and touches no link state; no step changes a parameter. -/
def Obligations.EachAgentTouchesOnlyItsOwn : Prop :=
  ∀ s t : State, step s = .next t →
    t.params = s.params ∧
    (s.inputs.turn = .controller →
      t.per = s.per ∧ t.ctrl.rstN = s.ctrl.rstN ∧ t.link.inFifo = s.link.inFifo ∧ t.link.outFifo = s.link.outFifo ∧
      t.link.inEn = s.link.inEn ∧ t.link.outEn = s.link.outEn) ∧
    (s.inputs.turn = .peripheral →
      t.ctrl = s.ctrl ∧ t.per.rstN = s.per.rstN ∧ t.link.selW = s.link.selW ∧ t.link.xfer = s.link.xfer) ∧
    (s.inputs.turn = .wire → t.ctrl = s.ctrl ∧ t.per = s.per) ∧
    (∀ c p : Bool, s.inputs.turn = .platform c p →
      t.link = s.link ∧ t.ctrl.rstN = c ∧ t.per.rstN = p ∧
      (c = true → s.ctrl.rstN = true → t.ctrl = s.ctrl) ∧ (p = true → s.per.rstN = true → t.per = s.per))

/-- R72, R86, R313: nothing of the controller block reaches the peripheral but through the bytes: two states that differ
in the controller's registers alone give the peripheral the same turn, be the controller in reset or not (but for a
transfer abandoned by its reset, U10). -/
def Obligations.PeripheralLearnsNothingOfTheControllerBlock : Prop :=
  ∀ (s : State) (c : Ctrl), Running .peripheral s → (c.rstN = true ∨ s.link.xfer = .idle) →
    (∀ t, step s = .next t → step { s with ctrl := c } = .next { t with ctrl := c }) ∧
    (∀ r, step s = .refused r → step { s with ctrl := c } = .refused r)

/-- R52, R53, R54, R229: which operation each step requests of its collaborators and what the ports then carry, step by
step; never more than one request at a time and none in reset; the observation outputs; the layout of `t_wdata`; and
that what `t_rdata` and `m_data` carry at a step's turn is what the step loads. -/
def Obligations.PortsShowEachStepsTransaction : Prop :=
  (∀ (o : ByteOrder) (c : Ctrl), c.rstN = true →
    ((c.ports o).tReq, (c.ports o).tOp, (c.ports o).tmStart, (c.ports o).tmSel) =
      (match c.cstep with
        | .build => (false, none, false, none)
        | .select => (true, some 0#3, false, none)
        | .send => (true, some 2#3, false, none)
        | .settle => (false, none, true, some 0#1)
        | .recv => (true, some 3#3, false, none)
        | .deselect => (true, some 1#3, false, none)
        | .validate => (false, none, false, none)
        | .post => (false, none, false, none)
        | .reset => (true, some 4#3, false, none)
        | .sleep => (false, none, true, some 1#1)) ∧
    (c.ports o).tWdata = (if c.cstep = .send then some (wdata (ser o (packetOf c.cTxp))) else none)) ∧
  (∀ (o : ByteOrder) (p : Per), p.rstN = true →
    ((p.ports o).tReq, (p.ports o).tOp, (p.ports o).mReq, (p.ports o).tmStart) =
      (match p.pstep with
        | .initIn => (true, some 5#3, false, false)
        | .initOut => (true, some 6#3, false, false)
        | .checkOut => (true, some 1#3, false, false)
        | .checkIn => (true, some 0#3, false, false)
        | .recv => (true, some 2#3, false, false)
        | .disableIn => (true, some 4#3, false, false)
        | .validate => (false, none, false, false)
        | .sample => (false, none, true, false)
        | .send => (true, some 3#3, false, false)
        | .reset => (true, some 7#3, false, false)
        | .enableOut => (true, some 6#3, false, false)
        | .enableIn => (true, some 5#3, false, false)
        | .sleep => (false, none, false, true)) ∧
    (p.ports o).tWdata = (if p.pstep = .send then some (wdata (ser o (packetOf p.pRsp))) else none)) ∧
  (∀ (o : ByteOrder) (c : Ctrl), c.rstN = false → (c.ports o).tReq = false ∧ (c.ports o).tmStart = false) ∧
  (∀ (o : ByteOrder) (p : Per), p.rstN = false →
    (p.ports o).tReq = false ∧ (p.ports o).tmStart = false ∧ (p.ports o).mReq = false) ∧
  (∀ (o : ByteOrder) (c : Ctrl), ¬((c.ports o).tReq = true ∧ (c.ports o).tmStart = true)) ∧
  (∀ (o : ByteOrder) (p : Per),
    ¬((p.ports o).tReq = true ∧ (p.ports o).tmStart = true) ∧
    ¬((p.ports o).tReq = true ∧ (p.ports o).mReq = true) ∧
    ¬((p.ports o).tmStart = true ∧ (p.ports o).mReq = true)) ∧
  (∀ (o : ByteOrder) (c : Ctrl),
    (c.ports o).obsPhase =
      (match c.phase with
        | .detectDevice => 0#2
        | .readUnit => 1#2
        | .readMeasurement => 2#2) ∧
    (c.ports o).obsRetry = c.cRetry ∧ (c.ports o).events = c.out.port ∧
    (c.ports o).rdValid = c.rdValid ∧ (c.ports o).rdWhole = c.rdWhole ∧ (c.ports o).rdFrac = c.rdFrac) ∧
  (∀ (o : ByteOrder) (p : Per), (p.ports o).obsRetry = p.pRetry ∧ (p.ports o).events = p.out.port) ∧
  (∀ b : Bytes4,
    (wdata b).extractLsb' 0 8 = b.b0 ∧ (wdata b).extractLsb' 8 8 = b.b1 ∧
    (wdata b).extractLsb' 16 8 = b.b2 ∧ (wdata b).extractLsb' 24 8 = b.b3) ∧
  (∀ (s : State) (b : Bytes4), Running .controller s → s.ctrl.cstep = .recv → s.link.xfer = .recv b.toList →
    ∃ t w, step s = .next t ∧ s.advance.ctrlInPorts.tAck = true ∧ s.advance.ctrlInPorts.tRdata = some w ∧
      w.extractLsb' 0 8 = b.b0 ∧ w.extractLsb' 8 8 = b.b1 ∧ w.extractLsb' 16 8 = b.b2 ∧ w.extractLsb' 24 8 = b.b3 ∧
      t.ctrl = s.ctrl.received s.params.cOrder (bytesOfData w)) ∧
  (∀ s : State, Running .peripheral s → s.per.pstep = .checkOut → s.link.outFifo.length < 2 ^ 32 →
    ∃ t w, step s = .next t ∧ s.advance.perInPorts.tAck = true ∧ s.advance.perInPorts.tRdata = some w ∧
      w.toNat = s.link.outFifo.length ∧ t.per = s.per.tookOutCount w.toNat) ∧
  (∀ s : State, Running .peripheral s → s.per.pstep = .checkIn → s.link.inFifo.length < 2 ^ 32 →
    ∃ t w, step s = .next t ∧ s.advance.perInPorts.tAck = true ∧ s.advance.perInPorts.tRdata = some w ∧
      w.toNat = s.link.inFifo.length ∧ t.per = s.per.tookInCount w.toNat) ∧
  (∀ (s : State) (b : Bytes4) (rest : List Byte), Running .peripheral s → s.per.pstep = .recv →
    s.link.inFifo = b.toList ++ rest →
    ∃ t w, step s = .next t ∧ s.advance.perInPorts.tAck = true ∧ s.advance.perInPorts.tRdata = some w ∧
      w.extractLsb' 0 8 = b.b0 ∧ w.extractLsb' 8 8 = b.b1 ∧ w.extractLsb' 16 8 = b.b2 ∧ w.extractLsb' 24 8 = b.b3 ∧
      t.per = s.per.received s.params.pOrder (bytesOfData w)) ∧
  (∀ s : State, Running .peripheral s → s.per.pstep = .sample →
    ∃ t v, step s = .next t ∧ s.advance.perInPorts.mAck = true ∧ s.advance.perInPorts.mData = some v ∧
      t.per = s.per.sampled v)

/-- The invariant holds right after reset. -/
def Obligations.ResetSatisfiesTheInvariant : Prop := Inv State.reset

/-- R55 to R57, R131, R172, R182, R215, R216: every step from a state of the invariant that answers a next state in which
neither block has been put into reset answers one of the invariant, whoever's turn it is and whatever is drawn. -/
def Obligations.EveryStepKeepsTheInvariant : Prop :=
  ∀ s t : State, Inv s → step s = .next t → t.ctrl.rstN = true → t.per.rstN = true → Inv t

/-- R57: the bounds of the retry counts are kept by every step, by themselves. -/
def Obligations.EveryStepKeepsTheRetryBounds : Prop :=
  ∀ s t : State, RetryInv s → step s = .next t → RetryInv t

/-- U9, R211, R215, R216: from a state of the invariant in which no byte has been lost, the machine always goes on: no
contract violation is ever committed, no response is judged in a wrong phase, and nothing is refused. -/
def Obligations.NothingIsRefusedUnderTheInvariant : Prop :=
  ∀ s : State, Inv s → s.link.overrun = false → ∃ t, step s = .next t

/-- R275, R276: whatever schedule of those R275 admits is run, from a quiescent point, with the fill bytes of the
`receive` not looking like a packet, one exchange brings the controller the reply the peripheral built and forward one
phase, clears its count, leaves the peripheral's count at 1 with one `E_FRAME`, and ends at a quiescent point; and the
schedule without idle steps is one of those, with `v` the sample, if one is asked for. That the peripheral takes the fill
bytes as one more packet rests on D11 (log entry 15). -/
def Obligations.TunedExchangeSucceeds : Prop :=
  (∀ (k : Nat) (s t : State),
    s.ctrl.rstN = true → s.per.rstN = true → s.link.overrun = false → s.params.Ok →
    s.params.cOrder = s.params.pOrder → Quiescent s → tunedRun k .send s = some t →
    noPacketIn s.params.pOrder t.inputs.fillsDrawn.now = true →
    Quiescent t ∧ t.ctrl.cstep = .sleep ∧ t.ctrl.phase = nextPhase s.ctrl.phase ∧ t.ctrl.cRetry = 0 ∧
      t.per.pRetry = 1 ∧ t.ctrl.cRxp = t.per.pRsp ∧ t.link.overrun = false ∧
      t.ctrl.out.log = s.ctrl.out.log ++
        (if s.ctrl.phase = .readMeasurement then
          [.reading (decodeWhole (asSigned16 t.per.pSmp)) (decodeFrac (asSigned16 t.per.pSmp))]
         else []) ∧
      ∃ f : Bytes4, t.inputs.fillsDrawn.now = f.toList ∧
        t.per.out.log = s.per.out.log ++ [.eFrame (deser s.params.pOrder f).header]) ∧
  (∀ (s : State) (f0 f1 f2 f3 : Byte) (fs : List Byte) (v : BitVec 16) (vs : List (BitVec 16)) (rest : List Agent),
    s.ctrl.rstN = true → s.per.rstN = true → s.link.overrun = false → s.params.Ok →
    s.params.cOrder = s.params.pOrder → Quiescent s → s.ctrl.cstep = .build → s.per.pstep = .checkOut →
    s.inputs.sched = tunedSchedule s.ctrl.phase ++ rest →
    s.inputs.samples = v :: vs → s.inputs.fills = f0 :: f1 :: f2 :: f3 :: fs →
    s.params.fillOk.allows [f0, f1, f2, f3] = true →
    NotFramed s.params.pOrder ⟨f0, f1, f2, f3⟩ →
    (∃ t, tunedRun ((tunedSchedule s.ctrl.phase).length - 1) .send s = some t) ∧
    ∃ t, stepN (tunedSchedule s.ctrl.phase).length s = .next t ∧
      Quiescent t ∧ t.ctrl.cstep = .build ∧ t.per.pstep = .checkOut ∧
      t.ctrl.phase = nextPhase s.ctrl.phase ∧ t.ctrl.cRetry = 0 ∧ t.per.pRetry = 1 ∧
      t.ctrl.out.log = s.ctrl.out.log ++
        (if s.ctrl.phase = .readMeasurement then [.reading (decodeWhole (asSigned16 v)) (decodeFrac (asSigned16 v))]
         else []) ∧
      t.per.out.log = s.per.out.log ++ [.eFrame (deser s.params.pOrder ⟨f0, f1, f2, f3⟩).header] ∧
      t.link.overrun = false ∧ t.inputs.sched = rest)
end

