-- ==== Sys2Proof/Laws/Framer.lean ====
section
/-! SUPPORT. The laws of the framer's parts: the two fields of a word and the two bytes of a field come apart and go
together again, four bytes come off the front of a list, and what the two masks of the opcode table keep. -/

namespace Sys2Proof

@[simp] theorem headerOf_word (p : Packet) : headerOf p.word = p.header :=
  BitVec.extractLsb'_append_eq_left

@[simp] theorem payloadOf_word (p : Packet) : payloadOf p.word = p.payload :=
  BitVec.extractLsb'_append_eq_right

theorem packetOf_word (p : Packet) : packetOf p.word = p := by
  simp [packetOf]

theorem word_packetOf (w : Word) : (packetOf w).word = w := by
  unfold packetOf Packet.word headerOf payloadOf
  apply BitVec.eq_of_getLsbD_eq
  intro i hi
  simp only [BitVec.getLsbD_append, BitVec.getLsbD_extractLsb']
  by_cases h : i < 16
  · simp [h]
  · have : i - 16 < 16 := by omega
    have e : 16 + (i - 16) = i := by omega
    simp [h, this, e]

/-- A word is decided by its two fields. -/
theorem word_ext {w w' : Word} (hh : headerOf w = headerOf w') (hp : payloadOf w = payloadOf w') : w = w' := by
  rw [← word_packetOf w, ← word_packetOf w', packetOf, packetOf, hh, hp]

@[simp] theorem lowByte_halfOf (hi lo : Byte) : lowByte (halfOf hi lo) = lo :=
  BitVec.extractLsb'_append_eq_right

@[simp] theorem highByte_halfOf (hi lo : Byte) : highByte (halfOf hi lo) = hi :=
  BitVec.extractLsb'_append_eq_left

@[simp] theorem halfOf_bytes (v : Half) : halfOf (highByte v) (lowByte v) = v := by
  unfold halfOf highByte lowByte
  apply BitVec.eq_of_getLsbD_eq
  intro i hi
  simp only [BitVec.getLsbD_append, BitVec.getLsbD_extractLsb']
  by_cases h : i < 8
  · simp [h]
  · have : i - 8 < 8 := by omega
    have e : 8 + (i - 8) = i := by omega
    simp [h, this, e]

/-- Four bytes in front of a list come off it as they stand. -/
@[simp] theorem takeBytes4_append (b : Bytes4) (rest : List Byte) : takeBytes4 (b.toList ++ rest) = some (b, rest) :=
  rfl

@[simp] theorem takeBytes4_toList (b : Bytes4) : takeBytes4 b.toList = some (b, []) := rfl

/-- Where four bytes come off, they were the front of the list. -/
theorem takeBytes4_eq_some {l rest : List Byte} {b : Bytes4} (h : takeBytes4 l = some (b, rest)) :
    l = b.toList ++ rest := by
  match l, h with
  | _ :: _ :: _ :: _ :: _, h =>
    obtain ⟨rfl, rfl⟩ := h
    rfl

/-- Four bytes come off exactly where there are four. -/
theorem takeBytes4_isSome (l : List Byte) : (takeBytes4 l).isSome = true ↔ 4 ≤ l.length := by
  match l with
  | [] => simp [takeBytes4]
  | [_] => simp [takeBytes4]
  | [_, _] => simp [takeBytes4]
  | [_, _, _] => simp [takeBytes4]
  | _ :: _ :: _ :: _ :: _ => simp [takeBytes4]

@[simp] theorem Bytes4.length_toList (b : Bytes4) : b.toList.length = 4 := rfl

theorem framed_iff (w : Word) : framed w = true ↔ headerOf w = 0xC819#16 := by
  simp [framed, Config.sentinel]

theorem framed_eq_false (w : Word) : framed w = false ↔ headerOf w ≠ 0xC819#16 := by
  rw [← Bool.not_eq_true, framed_iff]

/-- The mask of all ones keeps a word. -/
theorem and_full (w : Word) : w &&& 0xFFFFFFFF#32 = w := by
  have h : (0xFFFFFFFF#32 : Word) = BitVec.allOnes 32 := by decide
  rw [h, BitVec.and_allOnes]

/-- The mask of the header keeps the header alone. -/
theorem and_header (w : Word) : w &&& 0xFFFF0000#32 = (Packet.mk (headerOf w) 0#16).word := by
  have h : (0xFFFF0000#32 : Word) = (BitVec.allOnes 16 ++ 0#16 : BitVec (16 + 16)) := by decide
  conv_lhs => rw [← word_packetOf w, h]
  simp only [packetOf, Packet.word]
  rw [BitVec.and_append, BitVec.and_allOnes, BitVec.and_zero]

/-- The mask of nothing keeps nothing. -/
theorem and_none (w : Word) : w &&& 0x00000000#32 = 0x00000000#32 := BitVec.and_zero

/-- A word equals a well-framed one exactly when both fields do. -/
theorem eq_framed_iff (w : Word) (p : Half) :
    w = (Packet.mk Config.sentinel p).word ↔ headerOf w = 0xC819#16 ∧ payloadOf w = p := by
  constructor
  · rintro rfl
    exact ⟨by simp [Config.sentinel], by simp⟩
  · rintro ⟨h1, h2⟩
    exact word_ext (by simp [h1, Config.sentinel]) (by simp [h2])

end Sys2Proof
end

