-- ==== Sys2Proof/Laws/State.lean ====
section
/-! SUPPORT. One lemma for each field of each named operation: what the operation leaves in it. They are true by
unfolding and tagged simp, so that no later proof unfolds a record update. -/

namespace Sys2Proof.Machine

/-! ### Event outputs -/

@[simp] theorem EvOut.clear_port (o : EvOut) : o.clear.port = [] := rfl
@[simp] theorem EvOut.clear_log (o : EvOut) : o.clear.log = o.log := rfl
@[simp] theorem EvOut.raise_port (raw : Half) (e : Event) (o : EvOut) : (o.raise raw e).port = o.port ++ [e.record raw] := rfl
@[simp] theorem EvOut.raise_log (raw : Half) (e : Event) (o : EvOut) : (o.raise raw e).log = o.log ++ [e] := rfl

/-! ### Controller: the named operations -/

@[simp] theorem Ctrl.begin_rstN (c : Ctrl) : (c.begin).rstN = c.rstN := rfl
@[simp] theorem Ctrl.begin_phase (c : Ctrl) : (c.begin).phase = c.phase := rfl
@[simp] theorem Ctrl.begin_cRetry (c : Ctrl) : (c.begin).cRetry = c.cRetry := rfl
@[simp] theorem Ctrl.begin_cstep (c : Ctrl) : (c.begin).cstep = c.cstep := rfl
@[simp] theorem Ctrl.begin_cTxp (c : Ctrl) : (c.begin).cTxp = c.cTxp := rfl
@[simp] theorem Ctrl.begin_cRxp (c : Ctrl) : (c.begin).cRxp = c.cRxp := rfl
@[simp] theorem Ctrl.begin_rdWhole (c : Ctrl) : (c.begin).rdWhole = c.rdWhole := rfl
@[simp] theorem Ctrl.begin_rdFrac (c : Ctrl) : (c.begin).rdFrac = c.rdFrac := rfl
@[simp] theorem Ctrl.begin_rdValid (c : Ctrl) : (c.begin).rdValid = false := rfl
@[simp] theorem Ctrl.begin_sel (c : Ctrl) : (c.begin).sel = c.sel := rfl
@[simp] theorem Ctrl.begin_out (c : Ctrl) : (c.begin).out = c.out.clear := rfl

@[simp] theorem Ctrl.goto_rstN (n : CStep) (c : Ctrl) : (c.goto n).rstN = c.rstN := rfl
@[simp] theorem Ctrl.goto_phase (n : CStep) (c : Ctrl) : (c.goto n).phase = c.phase := rfl
@[simp] theorem Ctrl.goto_cRetry (n : CStep) (c : Ctrl) : (c.goto n).cRetry = c.cRetry := rfl
@[simp] theorem Ctrl.goto_cstep (n : CStep) (c : Ctrl) : (c.goto n).cstep = n := rfl
@[simp] theorem Ctrl.goto_cTxp (n : CStep) (c : Ctrl) : (c.goto n).cTxp = c.cTxp := rfl
@[simp] theorem Ctrl.goto_cRxp (n : CStep) (c : Ctrl) : (c.goto n).cRxp = c.cRxp := rfl
@[simp] theorem Ctrl.goto_rdWhole (n : CStep) (c : Ctrl) : (c.goto n).rdWhole = c.rdWhole := rfl
@[simp] theorem Ctrl.goto_rdFrac (n : CStep) (c : Ctrl) : (c.goto n).rdFrac = c.rdFrac := rfl
@[simp] theorem Ctrl.goto_rdValid (n : CStep) (c : Ctrl) : (c.goto n).rdValid = c.rdValid := rfl
@[simp] theorem Ctrl.goto_sel (n : CStep) (c : Ctrl) : (c.goto n).sel = c.sel := rfl
@[simp] theorem Ctrl.goto_out (n : CStep) (c : Ctrl) : (c.goto n).out = c.out := rfl

@[simp] theorem Ctrl.countFailure_rstN (w : Nat) (e : Event) (c : Ctrl) : (c.countFailure w e).rstN = c.rstN := rfl
@[simp] theorem Ctrl.countFailure_phase (w : Nat) (e : Event) (c : Ctrl) : (c.countFailure w e).phase = c.phase := rfl
@[simp] theorem Ctrl.countFailure_cRetry (w : Nat) (e : Event) (c : Ctrl) : (c.countFailure w e).cRetry = satInc w c.cRetry := rfl
@[simp] theorem Ctrl.countFailure_cstep (w : Nat) (e : Event) (c : Ctrl) : (c.countFailure w e).cstep = c.cstep := rfl
@[simp] theorem Ctrl.countFailure_cTxp (w : Nat) (e : Event) (c : Ctrl) : (c.countFailure w e).cTxp = c.cTxp := rfl
@[simp] theorem Ctrl.countFailure_cRxp (w : Nat) (e : Event) (c : Ctrl) : (c.countFailure w e).cRxp = c.cRxp := rfl
@[simp] theorem Ctrl.countFailure_rdWhole (w : Nat) (e : Event) (c : Ctrl) : (c.countFailure w e).rdWhole = c.rdWhole := rfl
@[simp] theorem Ctrl.countFailure_rdFrac (w : Nat) (e : Event) (c : Ctrl) : (c.countFailure w e).rdFrac = c.rdFrac := rfl
@[simp] theorem Ctrl.countFailure_rdValid (w : Nat) (e : Event) (c : Ctrl) : (c.countFailure w e).rdValid = c.rdValid := rfl
@[simp] theorem Ctrl.countFailure_sel (w : Nat) (e : Event) (c : Ctrl) : (c.countFailure w e).sel = c.sel := rfl
@[simp] theorem Ctrl.countFailure_out (w : Nat) (e : Event) (c : Ctrl) : (c.countFailure w e).out = c.out.raise 0#16 e := rfl

@[simp] theorem Ctrl.succeed_rstN (ph : Phase) (c : Ctrl) : (c.succeed ph).rstN = c.rstN := rfl
@[simp] theorem Ctrl.succeed_phase (ph : Phase) (c : Ctrl) : (c.succeed ph).phase = ph := rfl
@[simp] theorem Ctrl.succeed_cRetry (ph : Phase) (c : Ctrl) : (c.succeed ph).cRetry = 0 := rfl
@[simp] theorem Ctrl.succeed_cstep (ph : Phase) (c : Ctrl) : (c.succeed ph).cstep = c.cstep := rfl
@[simp] theorem Ctrl.succeed_cTxp (ph : Phase) (c : Ctrl) : (c.succeed ph).cTxp = c.cTxp := rfl
@[simp] theorem Ctrl.succeed_cRxp (ph : Phase) (c : Ctrl) : (c.succeed ph).cRxp = c.cRxp := rfl
@[simp] theorem Ctrl.succeed_rdWhole (ph : Phase) (c : Ctrl) : (c.succeed ph).rdWhole = c.rdWhole := rfl
@[simp] theorem Ctrl.succeed_rdFrac (ph : Phase) (c : Ctrl) : (c.succeed ph).rdFrac = c.rdFrac := rfl
@[simp] theorem Ctrl.succeed_rdValid (ph : Phase) (c : Ctrl) : (c.succeed ph).rdValid = c.rdValid := rfl
@[simp] theorem Ctrl.succeed_sel (ph : Phase) (c : Ctrl) : (c.succeed ph).sel = c.sel := rfl
@[simp] theorem Ctrl.succeed_out (ph : Phase) (c : Ctrl) : (c.succeed ph).out = c.out := rfl

@[simp] theorem Ctrl.emitReading_rstN (m : Half) (c : Ctrl) : (c.emitReading m).rstN = c.rstN := rfl
@[simp] theorem Ctrl.emitReading_phase (m : Half) (c : Ctrl) : (c.emitReading m).phase = c.phase := rfl
@[simp] theorem Ctrl.emitReading_cRetry (m : Half) (c : Ctrl) : (c.emitReading m).cRetry = c.cRetry := rfl
@[simp] theorem Ctrl.emitReading_cstep (m : Half) (c : Ctrl) : (c.emitReading m).cstep = c.cstep := rfl
@[simp] theorem Ctrl.emitReading_cTxp (m : Half) (c : Ctrl) : (c.emitReading m).cTxp = c.cTxp := rfl
@[simp] theorem Ctrl.emitReading_cRxp (m : Half) (c : Ctrl) : (c.emitReading m).cRxp = c.cRxp := rfl
@[simp] theorem Ctrl.emitReading_rdWhole (m : Half) (c : Ctrl) : (c.emitReading m).rdWhole = BitVec.ofInt 16 (decodeWhole (asSigned16 m)) := rfl
@[simp] theorem Ctrl.emitReading_rdFrac (m : Half) (c : Ctrl) : (c.emitReading m).rdFrac = BitVec.ofNat 7 (decodeFrac (asSigned16 m)) := rfl
@[simp] theorem Ctrl.emitReading_rdValid (m : Half) (c : Ctrl) : (c.emitReading m).rdValid = true := rfl
@[simp] theorem Ctrl.emitReading_sel (m : Half) (c : Ctrl) : (c.emitReading m).sel = c.sel := rfl
@[simp] theorem Ctrl.emitReading_out (m : Half) (c : Ctrl) : (c.emitReading m).out = c.out.raise m (.reading (decodeWhole (asSigned16 m)) (decodeFrac (asSigned16 m))) := rfl

@[simp] theorem Ctrl.recover_rstN (c : Ctrl) : (c.recover).rstN = c.rstN := rfl
@[simp] theorem Ctrl.recover_phase (c : Ctrl) : (c.recover).phase = .detectDevice := rfl
@[simp] theorem Ctrl.recover_cRetry (c : Ctrl) : (c.recover).cRetry = 0 := rfl
@[simp] theorem Ctrl.recover_cstep (c : Ctrl) : (c.recover).cstep = c.cstep := rfl
@[simp] theorem Ctrl.recover_cTxp (c : Ctrl) : (c.recover).cTxp = c.cTxp := rfl
@[simp] theorem Ctrl.recover_cRxp (c : Ctrl) : (c.recover).cRxp = c.cRxp := rfl
@[simp] theorem Ctrl.recover_rdWhole (c : Ctrl) : (c.recover).rdWhole = c.rdWhole := rfl
@[simp] theorem Ctrl.recover_rdFrac (c : Ctrl) : (c.recover).rdFrac = c.rdFrac := rfl
@[simp] theorem Ctrl.recover_rdValid (c : Ctrl) : (c.recover).rdValid = c.rdValid := rfl
@[simp] theorem Ctrl.recover_sel (c : Ctrl) : (c.recover).sel = c.sel := rfl
@[simp] theorem Ctrl.recover_out (c : Ctrl) : (c.recover).out = c.out.raise 0#16 .eBudget := rfl

/-! ### Peripheral: the named operations -/

@[simp] theorem Per.begin_rstN (p : Per) : (p.begin).rstN = p.rstN := rfl
@[simp] theorem Per.begin_pRetry (p : Per) : (p.begin).pRetry = p.pRetry := rfl
@[simp] theorem Per.begin_pstep (p : Per) : (p.begin).pstep = p.pstep := rfl
@[simp] theorem Per.begin_pReq (p : Per) : (p.begin).pReq = p.pReq := rfl
@[simp] theorem Per.begin_pRsp (p : Per) : (p.begin).pRsp = p.pRsp := rfl
@[simp] theorem Per.begin_pSmp (p : Per) : (p.begin).pSmp = p.pSmp := rfl
@[simp] theorem Per.begin_pOcnt (p : Per) : (p.begin).pOcnt = p.pOcnt := rfl
@[simp] theorem Per.begin_pIcnt (p : Per) : (p.begin).pIcnt = p.pIcnt := rfl
@[simp] theorem Per.begin_out (p : Per) : (p.begin).out = p.out.clear := rfl

@[simp] theorem Per.goto_rstN (n : PStep) (p : Per) : (p.goto n).rstN = p.rstN := rfl
@[simp] theorem Per.goto_pRetry (n : PStep) (p : Per) : (p.goto n).pRetry = p.pRetry := rfl
@[simp] theorem Per.goto_pstep (n : PStep) (p : Per) : (p.goto n).pstep = n := rfl
@[simp] theorem Per.goto_pReq (n : PStep) (p : Per) : (p.goto n).pReq = p.pReq := rfl
@[simp] theorem Per.goto_pRsp (n : PStep) (p : Per) : (p.goto n).pRsp = p.pRsp := rfl
@[simp] theorem Per.goto_pSmp (n : PStep) (p : Per) : (p.goto n).pSmp = p.pSmp := rfl
@[simp] theorem Per.goto_pOcnt (n : PStep) (p : Per) : (p.goto n).pOcnt = p.pOcnt := rfl
@[simp] theorem Per.goto_pIcnt (n : PStep) (p : Per) : (p.goto n).pIcnt = p.pIcnt := rfl
@[simp] theorem Per.goto_out (n : PStep) (p : Per) : (p.goto n).out = p.out := rfl

@[simp] theorem Per.acceptFrame_rstN (p : Per) : (p.acceptFrame).rstN = p.rstN := rfl
@[simp] theorem Per.acceptFrame_pRetry (p : Per) : (p.acceptFrame).pRetry = 0 := rfl
@[simp] theorem Per.acceptFrame_pstep (p : Per) : (p.acceptFrame).pstep = p.pstep := rfl
@[simp] theorem Per.acceptFrame_pReq (p : Per) : (p.acceptFrame).pReq = p.pReq := rfl
@[simp] theorem Per.acceptFrame_pRsp (p : Per) : (p.acceptFrame).pRsp = p.pRsp := rfl
@[simp] theorem Per.acceptFrame_pSmp (p : Per) : (p.acceptFrame).pSmp = p.pSmp := rfl
@[simp] theorem Per.acceptFrame_pOcnt (p : Per) : (p.acceptFrame).pOcnt = p.pOcnt := rfl
@[simp] theorem Per.acceptFrame_pIcnt (p : Per) : (p.acceptFrame).pIcnt = p.pIcnt := rfl
@[simp] theorem Per.acceptFrame_out (p : Per) : (p.acceptFrame).out = p.out := rfl

@[simp] theorem Per.reply_rstN (v : Half) (p : Per) : (p.reply v).rstN = p.rstN := rfl
@[simp] theorem Per.reply_pRetry (v : Half) (p : Per) : (p.reply v).pRetry = p.pRetry := rfl
@[simp] theorem Per.reply_pstep (v : Half) (p : Per) : (p.reply v).pstep = p.pstep := rfl
@[simp] theorem Per.reply_pReq (v : Half) (p : Per) : (p.reply v).pReq = p.pReq := rfl
@[simp] theorem Per.reply_pRsp (v : Half) (p : Per) : (p.reply v).pRsp = framedWord v := rfl
@[simp] theorem Per.reply_pSmp (v : Half) (p : Per) : (p.reply v).pSmp = p.pSmp := rfl
@[simp] theorem Per.reply_pOcnt (v : Half) (p : Per) : (p.reply v).pOcnt = p.pOcnt := rfl
@[simp] theorem Per.reply_pIcnt (v : Half) (p : Per) : (p.reply v).pIcnt = p.pIcnt := rfl
@[simp] theorem Per.reply_out (v : Half) (p : Per) : (p.reply v).out = p.out := rfl

@[simp] theorem Per.raise_rstN (e : Event) (p : Per) : (p.raise e).rstN = p.rstN := rfl
@[simp] theorem Per.raise_pRetry (e : Event) (p : Per) : (p.raise e).pRetry = p.pRetry := rfl
@[simp] theorem Per.raise_pstep (e : Event) (p : Per) : (p.raise e).pstep = p.pstep := rfl
@[simp] theorem Per.raise_pReq (e : Event) (p : Per) : (p.raise e).pReq = p.pReq := rfl
@[simp] theorem Per.raise_pRsp (e : Event) (p : Per) : (p.raise e).pRsp = p.pRsp := rfl
@[simp] theorem Per.raise_pSmp (e : Event) (p : Per) : (p.raise e).pSmp = p.pSmp := rfl
@[simp] theorem Per.raise_pOcnt (e : Event) (p : Per) : (p.raise e).pOcnt = p.pOcnt := rfl
@[simp] theorem Per.raise_pIcnt (e : Event) (p : Per) : (p.raise e).pIcnt = p.pIcnt := rfl
@[simp] theorem Per.raise_out (e : Event) (p : Per) : (p.raise e).out = p.out.raise 0#16 e := rfl

/-! ### Link -/

@[simp] theorem Link.select_inFifo (a : Bool) (l : Link) : (l.select a).inFifo = l.inFifo := rfl
@[simp] theorem Link.select_outFifo (a : Bool) (l : Link) : (l.select a).outFifo = l.outFifo := rfl
@[simp] theorem Link.select_inEn (a : Bool) (l : Link) : (l.select a).inEn = l.inEn := rfl
@[simp] theorem Link.select_outEn (a : Bool) (l : Link) : (l.select a).outEn = l.outEn := rfl
@[simp] theorem Link.select_selW (a : Bool) (l : Link) : (l.select a).selW = a := rfl
@[simp] theorem Link.select_xfer (a : Bool) (l : Link) : (l.select a).xfer = l.xfer := rfl
@[simp] theorem Link.select_overrun (a : Bool) (l : Link) : (l.select a).overrun = l.overrun := rfl

@[simp] theorem Link.issueSend_inFifo (b : Bytes4) (l : Link) : (l.issueSend b).inFifo = l.inFifo := rfl
@[simp] theorem Link.issueSend_outFifo (b : Bytes4) (l : Link) : (l.issueSend b).outFifo = l.outFifo := rfl
@[simp] theorem Link.issueSend_inEn (b : Bytes4) (l : Link) : (l.issueSend b).inEn = l.inEn := rfl
@[simp] theorem Link.issueSend_outEn (b : Bytes4) (l : Link) : (l.issueSend b).outEn = l.outEn := rfl
@[simp] theorem Link.issueSend_selW (b : Bytes4) (l : Link) : (l.issueSend b).selW = l.selW := rfl
@[simp] theorem Link.issueSend_xfer (b : Bytes4) (l : Link) : (l.issueSend b).xfer = .send b 0 := rfl
@[simp] theorem Link.issueSend_overrun (b : Bytes4) (l : Link) : (l.issueSend b).overrun = l.overrun := rfl

@[simp] theorem Link.issueRecv_inFifo (l : Link) : (l.issueRecv).inFifo = l.inFifo := rfl
@[simp] theorem Link.issueRecv_outFifo (l : Link) : (l.issueRecv).outFifo = l.outFifo := rfl
@[simp] theorem Link.issueRecv_inEn (l : Link) : (l.issueRecv).inEn = l.inEn := rfl
@[simp] theorem Link.issueRecv_outEn (l : Link) : (l.issueRecv).outEn = l.outEn := rfl
@[simp] theorem Link.issueRecv_selW (l : Link) : (l.issueRecv).selW = l.selW := rfl
@[simp] theorem Link.issueRecv_xfer (l : Link) : (l.issueRecv).xfer = .recv [] := rfl
@[simp] theorem Link.issueRecv_overrun (l : Link) : (l.issueRecv).overrun = l.overrun := rfl

@[simp] theorem Link.finish_inFifo (l : Link) : (l.finish).inFifo = l.inFifo := rfl
@[simp] theorem Link.finish_outFifo (l : Link) : (l.finish).outFifo = l.outFifo := rfl
@[simp] theorem Link.finish_inEn (l : Link) : (l.finish).inEn = l.inEn := rfl
@[simp] theorem Link.finish_outEn (l : Link) : (l.finish).outEn = l.outEn := rfl
@[simp] theorem Link.finish_selW (l : Link) : (l.finish).selW = l.selW := rfl
@[simp] theorem Link.finish_xfer (l : Link) : (l.finish).xfer = .idle := rfl
@[simp] theorem Link.finish_overrun (l : Link) : (l.finish).overrun = l.overrun := rfl

@[simp] theorem Link.queue_inFifo (b : Bytes4) (l : Link) : (l.queue b).inFifo = l.inFifo := rfl
@[simp] theorem Link.queue_outFifo (b : Bytes4) (l : Link) : (l.queue b).outFifo = l.outFifo ++ b.toList := rfl
@[simp] theorem Link.queue_inEn (b : Bytes4) (l : Link) : (l.queue b).inEn = l.inEn := rfl
@[simp] theorem Link.queue_outEn (b : Bytes4) (l : Link) : (l.queue b).outEn = l.outEn := rfl
@[simp] theorem Link.queue_selW (b : Bytes4) (l : Link) : (l.queue b).selW = l.selW := rfl
@[simp] theorem Link.queue_xfer (b : Bytes4) (l : Link) : (l.queue b).xfer = l.xfer := rfl
@[simp] theorem Link.queue_overrun (b : Bytes4) (l : Link) : (l.queue b).overrun = l.overrun := rfl

@[simp] theorem Link.enableInbound_inFifo (l : Link) : (l.enableInbound).inFifo = l.inFifo := rfl
@[simp] theorem Link.enableInbound_outFifo (l : Link) : (l.enableInbound).outFifo = l.outFifo := rfl
@[simp] theorem Link.enableInbound_inEn (l : Link) : (l.enableInbound).inEn = true := rfl
@[simp] theorem Link.enableInbound_outEn (l : Link) : (l.enableInbound).outEn = l.outEn := rfl
@[simp] theorem Link.enableInbound_selW (l : Link) : (l.enableInbound).selW = l.selW := rfl
@[simp] theorem Link.enableInbound_xfer (l : Link) : (l.enableInbound).xfer = l.xfer := rfl
@[simp] theorem Link.enableInbound_overrun (l : Link) : (l.enableInbound).overrun = l.overrun := rfl

@[simp] theorem Link.disableInbound_inFifo (l : Link) : (l.disableInbound).inFifo = l.inFifo := rfl
@[simp] theorem Link.disableInbound_outFifo (l : Link) : (l.disableInbound).outFifo = l.outFifo := rfl
@[simp] theorem Link.disableInbound_inEn (l : Link) : (l.disableInbound).inEn = false := rfl
@[simp] theorem Link.disableInbound_outEn (l : Link) : (l.disableInbound).outEn = l.outEn := rfl
@[simp] theorem Link.disableInbound_selW (l : Link) : (l.disableInbound).selW = l.selW := rfl
@[simp] theorem Link.disableInbound_xfer (l : Link) : (l.disableInbound).xfer = l.xfer := rfl
@[simp] theorem Link.disableInbound_overrun (l : Link) : (l.disableInbound).overrun = l.overrun := rfl

@[simp] theorem Link.enableOutbound_inFifo (l : Link) : (l.enableOutbound).inFifo = l.inFifo := rfl
@[simp] theorem Link.enableOutbound_outFifo (l : Link) : (l.enableOutbound).outFifo = l.outFifo := rfl
@[simp] theorem Link.enableOutbound_inEn (l : Link) : (l.enableOutbound).inEn = l.inEn := rfl
@[simp] theorem Link.enableOutbound_outEn (l : Link) : (l.enableOutbound).outEn = true := rfl
@[simp] theorem Link.enableOutbound_selW (l : Link) : (l.enableOutbound).selW = l.selW := rfl
@[simp] theorem Link.enableOutbound_xfer (l : Link) : (l.enableOutbound).xfer = l.xfer := rfl
@[simp] theorem Link.enableOutbound_overrun (l : Link) : (l.enableOutbound).overrun = l.overrun := rfl

@[simp] theorem Link.resetPeripheral_inFifo (l : Link) : (l.resetPeripheral).inFifo = [] := rfl
@[simp] theorem Link.resetPeripheral_outFifo (l : Link) : (l.resetPeripheral).outFifo = [] := rfl
@[simp] theorem Link.resetPeripheral_inEn (l : Link) : (l.resetPeripheral).inEn = l.inEn := rfl
@[simp] theorem Link.resetPeripheral_outEn (l : Link) : (l.resetPeripheral).outEn = false := rfl
@[simp] theorem Link.resetPeripheral_selW (l : Link) : (l.resetPeripheral).selW = l.selW := rfl
@[simp] theorem Link.resetPeripheral_xfer (l : Link) : (l.resetPeripheral).xfer = l.xfer := rfl
@[simp] theorem Link.resetPeripheral_overrun (l : Link) : (l.resetPeripheral).overrun = l.overrun := rfl

@[simp] theorem Link.resetController_eq (l : Link) : l.resetController = l := rfl

/-! ### Inputs -/

@[simp] theorem Draws.starting_now_true (d : Draws) : (d.starting true).now = [] := rfl
@[simp] theorem Draws.starting_false (d : Draws) : d.starting false = d := rfl
@[simp] theorem Draws.took_now (b : Byte) (d : Draws) : (d.took b).now = d.now ++ [b] := rfl
@[simp] theorem Draws.took_past (b : Byte) (d : Draws) : (d.took b).past = d.past := rfl
@[simp] theorem Draws.starting_all (first : Bool) (d : Draws) : (d.starting first).all = d.all := by
  cases first <;> simp [Draws.starting, Draws.all]
@[simp] theorem Draws.took_all (b : Byte) (d : Draws) : (d.took b).all = d.all ++ [b] := by simp [Draws.took, Draws.all]

@[simp] theorem Inputs.advance_tick (n : Inputs) : (n.advance).tick = n.tick + 1 := rfl
@[simp] theorem Inputs.advance_sched (n : Inputs) : (n.advance).sched = n.sched.tail := rfl
@[simp] theorem Inputs.advance_samples (n : Inputs) : (n.advance).samples = n.samples := rfl
@[simp] theorem Inputs.advance_fills (n : Inputs) : (n.advance).fills = n.fills := rfl
@[simp] theorem Inputs.advance_underflows (n : Inputs) : (n.advance).underflows = n.underflows := rfl
@[simp] theorem Inputs.advance_fillsDrawn (n : Inputs) : (n.advance).fillsDrawn = n.fillsDrawn := rfl
@[simp] theorem Inputs.advance_underflowsDrawn (n : Inputs) : (n.advance).underflowsDrawn = n.underflowsDrawn := rfl

@[simp] theorem Inputs.dropSample_tick (n : Inputs) : (n.dropSample).tick = n.tick := rfl
@[simp] theorem Inputs.dropSample_sched (n : Inputs) : (n.dropSample).sched = n.sched := rfl
@[simp] theorem Inputs.dropSample_samples (n : Inputs) : (n.dropSample).samples = n.samples.tail := rfl
@[simp] theorem Inputs.dropSample_fills (n : Inputs) : (n.dropSample).fills = n.fills := rfl
@[simp] theorem Inputs.dropSample_underflows (n : Inputs) : (n.dropSample).underflows = n.underflows := rfl
@[simp] theorem Inputs.dropSample_fillsDrawn (n : Inputs) : (n.dropSample).fillsDrawn = n.fillsDrawn := rfl
@[simp] theorem Inputs.dropSample_underflowsDrawn (n : Inputs) : (n.dropSample).underflowsDrawn = n.underflowsDrawn := rfl

@[simp] theorem Inputs.beginBeat_tick (first : Bool) (n : Inputs) : (n.beginBeat first).tick = n.tick := rfl
@[simp] theorem Inputs.beginBeat_sched (first : Bool) (n : Inputs) : (n.beginBeat first).sched = n.sched := rfl
@[simp] theorem Inputs.beginBeat_samples (first : Bool) (n : Inputs) : (n.beginBeat first).samples = n.samples := rfl
@[simp] theorem Inputs.beginBeat_fills (first : Bool) (n : Inputs) : (n.beginBeat first).fills = n.fills := rfl
@[simp] theorem Inputs.beginBeat_underflows (first : Bool) (n : Inputs) : (n.beginBeat first).underflows = n.underflows := rfl
@[simp] theorem Inputs.beginBeat_fillsDrawn (first : Bool) (n : Inputs) : (n.beginBeat first).fillsDrawn = n.fillsDrawn.starting first := rfl
@[simp] theorem Inputs.beginBeat_underflowsDrawn (first : Bool) (n : Inputs) : (n.beginBeat first).underflowsDrawn = n.underflowsDrawn.starting first := rfl

@[simp] theorem Inputs.dropFill_tick (b : Byte) (n : Inputs) : (n.dropFill b).tick = n.tick := rfl
@[simp] theorem Inputs.dropFill_sched (b : Byte) (n : Inputs) : (n.dropFill b).sched = n.sched := rfl
@[simp] theorem Inputs.dropFill_samples (b : Byte) (n : Inputs) : (n.dropFill b).samples = n.samples := rfl
@[simp] theorem Inputs.dropFill_fills (b : Byte) (n : Inputs) : (n.dropFill b).fills = n.fills.tail := rfl
@[simp] theorem Inputs.dropFill_underflows (b : Byte) (n : Inputs) : (n.dropFill b).underflows = n.underflows := rfl
@[simp] theorem Inputs.dropFill_fillsDrawn (b : Byte) (n : Inputs) : (n.dropFill b).fillsDrawn = n.fillsDrawn.took b := rfl
@[simp] theorem Inputs.dropFill_underflowsDrawn (b : Byte) (n : Inputs) : (n.dropFill b).underflowsDrawn = n.underflowsDrawn := rfl

@[simp] theorem Inputs.dropUnderflow_tick (b : Byte) (n : Inputs) : (n.dropUnderflow b).tick = n.tick := rfl
@[simp] theorem Inputs.dropUnderflow_sched (b : Byte) (n : Inputs) : (n.dropUnderflow b).sched = n.sched := rfl
@[simp] theorem Inputs.dropUnderflow_samples (b : Byte) (n : Inputs) : (n.dropUnderflow b).samples = n.samples := rfl
@[simp] theorem Inputs.dropUnderflow_fills (b : Byte) (n : Inputs) : (n.dropUnderflow b).fills = n.fills := rfl
@[simp] theorem Inputs.dropUnderflow_underflows (b : Byte) (n : Inputs) : (n.dropUnderflow b).underflows = n.underflows.tail := rfl
@[simp] theorem Inputs.dropUnderflow_fillsDrawn (b : Byte) (n : Inputs) : (n.dropUnderflow b).fillsDrawn = n.fillsDrawn := rfl
@[simp] theorem Inputs.dropUnderflow_underflowsDrawn (b : Byte) (n : Inputs) : (n.dropUnderflow b).underflowsDrawn = n.underflowsDrawn.took b := rfl

@[simp] theorem State.advance_params (s : State) : s.advance.params = s.params := rfl
@[simp] theorem State.advance_ctrl (s : State) : s.advance.ctrl = s.ctrl := rfl
@[simp] theorem State.advance_per (s : State) : s.advance.per = s.per := rfl
@[simp] theorem State.advance_link (s : State) : s.advance.link = s.link := rfl
@[simp] theorem State.advance_inputs (s : State) : s.advance.inputs = s.inputs.advance := rfl

end Sys2Proof.Machine
end

