-- ==== Sys2Proof/Laws/Draws.lean ====
section
/-! SUPPORT. What a draw rule allows (R14, R266): every byte drawn keeps the group within the rule, a byte the rule
allows is drawn as it is offered, and the default rule allows every byte. -/

namespace Sys2Proof

theorem BytePattern.cells_length (p : BytePattern) : p.cells.length = 4 := rfl

/-- Fitting a pattern, place by place. -/
theorem BytePattern.fits_append_singleton (p : BytePattern) (l : List Byte) (b : Byte) :
    p.fits (l ++ [b]) = (p.fits l && (p.cells[l.length]?).all (cellFits · b)) := by
  unfold BytePattern.fits
  generalize p.cells = cs
  induction l generalizing cs with
  | nil => cases cs <;> simp
  | cons a l ih =>
    cases cs with
    | nil => simp
    | cons c cs => simp [ih, Bool.and_assoc]

/-- A byte brought into a cell agrees with it. -/
theorem cellFits_force (cell : Byte × Byte) (b : Byte) :
    cellFits cell ((b &&& ~~~cell.1) ||| (cell.2 &&& cell.1)) = true := by
  unfold cellFits
  rw [beq_iff_eq]
  ext i hi
  simp only [BitVec.getElem_and, BitVec.getElem_or, BitVec.getElem_not]
  cases cell.1[i] <;> simp

/-- A pattern that the bytes before fit takes the forced byte. -/
theorem BytePattern.fits_force {p : BytePattern} {l : List Byte} (h : p.fits l = true) (b : Byte) :
    p.fits (l ++ [p.force l.length b]) = true := by
  rw [BytePattern.fits_append_singleton, h, Bool.true_and]
  unfold BytePattern.force
  cases p.cells[l.length]? with
  | none => rfl
  | some cell => exact cellFits_force cell b

@[simp] theorem DrawRule.allows_nil (r : DrawRule) : r.allows [] = true := by
  simp [DrawRule.allows, BytePattern.fits]

/-- What is drawn first of an allowed group is allowed. -/
theorem DrawRule.allows_of_append {r : DrawRule} {l : List Byte} {b : Byte} (h : r.allows (l ++ [b]) = true) :
    r.allows l = true := by
  unfold DrawRule.allows at *
  obtain ⟨p, hp, hf⟩ := List.any_eq_true.1 h
  rw [BytePattern.fits_append_singleton, Bool.and_eq_true] at hf
  exact List.any_eq_true.2 ⟨p, hp, hf.1⟩

/-- A byte the rule allows is drawn as it is offered. -/
theorem DrawRule.draw_of_allows {r : DrawRule} {l : List Byte} {b : Byte} (h : r.allows (l ++ [b]) = true) :
    r.draw l b = b := if_pos h

/-- Whatever is offered, what is drawn keeps the group within the rule. -/
theorem DrawRule.allows_draw {r : DrawRule} {l : List Byte} (h : r.allows l = true) (b : Byte) :
    r.allows (l ++ [r.draw l b]) = true := by
  unfold DrawRule.draw
  split
  · assumption
  · obtain ⟨p, hp, hf⟩ := List.any_eq_true.1 h
    cases hq : (r.first :: r.others).find? fun p => p.fits l with
    | none => exact absurd hf (by simpa using List.find?_eq_none.1 hq p hp)
    | some q =>
      exact List.any_eq_true.2 ⟨q, List.mem_of_find?_eq_some hq,
        BytePattern.fits_force (by simpa using List.find?_some hq) b⟩

/-- The default rule is true of any bytes (R14). -/
@[simp] theorem DrawRule.anyBytes_allows (l : List Byte) : DrawRule.anyBytes.allows l = true := by
  have : ∀ cs : List (Byte × Byte), (∀ c ∈ cs, c.1 = 0#8) →
      ∀ l : List Byte, ((cs.zip l).all fun x => cellFits x.1 x.2) = true := by
    intro cs hc l
    rw [List.all_eq_true]
    intro x hx
    simp [cellFits, hc x.1 (List.of_mem_zip hx).1]
  simp only [DrawRule.allows, DrawRule.anyBytes, List.any_cons, Bool.or_eq_true]
  exact .inl (this _ (fun c hc => by simp_all [BytePattern.cells, Bytes4.toList]) l)

/-- Under the default rule every byte the environment offers is drawn. -/
@[simp] theorem DrawRule.anyBytes_draw (l : List Byte) (b : Byte) : DrawRule.anyBytes.draw l b = b :=
  DrawRule.draw_of_allows (DrawRule.anyBytes_allows _)

end Sys2Proof

namespace Sys2Proof.Machine

theorem Inputs.drawsAllowed_iff (p : Params) (n : Inputs) :
    n.drawsAllowed p = true ↔
      p.fillOk.allows n.fillsDrawn.now = true ∧ p.underflowOk.allows n.underflowsDrawn.now = true := by
  simp [Inputs.drawsAllowed]

/-- A beat begins within the rules: with the groups so far, or with new ones. -/
theorem Inputs.beginBeat_allowed {p : Params} {n : Inputs} (first : Bool) (h : n.drawsAllowed p = true) :
    (n.beginBeat first).drawsAllowed p = true := by
  cases first
  · exact h
  · simp [Inputs.drawsAllowed_iff]

theorem Inputs.dropFill_allowed {p : Params} {n : Inputs} {d : Byte} (h : n.drawsAllowed p = true)
    (hd : p.fillOk.allows (n.fillsDrawn.now ++ [d]) = true) : (n.dropFill d).drawsAllowed p = true := by
  rw [Inputs.drawsAllowed_iff] at *
  exact ⟨hd, h.2⟩

theorem Inputs.dropUnderflow_allowed {p : Params} {n : Inputs} (h : n.drawsAllowed p = true) :
    (n.dropUnderflow (n.underflow p.underflowOk)).drawsAllowed p = true := by
  rw [Inputs.drawsAllowed_iff] at *
  exact ⟨h.1, DrawRule.allows_draw h.2 _⟩

end Sys2Proof.Machine
end

