-- ==== Sys2Proof/Laws/Steps.lean ====
section
/-! SUPPORT. One lemma for each field of each micro-step of the two blocks, as in Laws/State.lean. The two micro-steps
that branch, `Ctrl.posted` and `Per.countNoise`, have a lemma for each branch. -/

namespace Sys2Proof.Machine

/-! ### Controller: the micro-steps -/

@[simp] theorem Ctrl.build_rstN (c : Ctrl) : (c.build).rstN = c.rstN := rfl
@[simp] theorem Ctrl.build_phase (c : Ctrl) : (c.build).phase = c.phase := rfl
@[simp] theorem Ctrl.build_cRetry (c : Ctrl) : (c.build).cRetry = c.cRetry := rfl
@[simp] theorem Ctrl.build_cstep (c : Ctrl) : (c.build).cstep = .select := rfl
@[simp] theorem Ctrl.build_cTxp (c : Ctrl) : (c.build).cTxp = requestWord c.phase := rfl
@[simp] theorem Ctrl.build_cRxp (c : Ctrl) : (c.build).cRxp = c.cRxp := rfl
@[simp] theorem Ctrl.build_rdWhole (c : Ctrl) : (c.build).rdWhole = c.rdWhole := rfl
@[simp] theorem Ctrl.build_rdFrac (c : Ctrl) : (c.build).rdFrac = c.rdFrac := rfl
@[simp] theorem Ctrl.build_rdValid (c : Ctrl) : (c.build).rdValid = false := rfl
@[simp] theorem Ctrl.build_sel (c : Ctrl) : (c.build).sel = c.sel := rfl
@[simp] theorem Ctrl.build_out (c : Ctrl) : (c.build).out = c.out.clear := rfl

@[simp] theorem Ctrl.selected_rstN (c : Ctrl) : (c.selected).rstN = c.rstN := rfl
@[simp] theorem Ctrl.selected_phase (c : Ctrl) : (c.selected).phase = c.phase := rfl
@[simp] theorem Ctrl.selected_cRetry (c : Ctrl) : (c.selected).cRetry = c.cRetry := rfl
@[simp] theorem Ctrl.selected_cstep (c : Ctrl) : (c.selected).cstep = .send := rfl
@[simp] theorem Ctrl.selected_cTxp (c : Ctrl) : (c.selected).cTxp = c.cTxp := rfl
@[simp] theorem Ctrl.selected_cRxp (c : Ctrl) : (c.selected).cRxp = c.cRxp := rfl
@[simp] theorem Ctrl.selected_rdWhole (c : Ctrl) : (c.selected).rdWhole = c.rdWhole := rfl
@[simp] theorem Ctrl.selected_rdFrac (c : Ctrl) : (c.selected).rdFrac = c.rdFrac := rfl
@[simp] theorem Ctrl.selected_rdValid (c : Ctrl) : (c.selected).rdValid = false := rfl
@[simp] theorem Ctrl.selected_sel (c : Ctrl) : (c.selected).sel = true := rfl
@[simp] theorem Ctrl.selected_out (c : Ctrl) : (c.selected).out = c.out.clear := rfl

@[simp] theorem Ctrl.sent_rstN (c : Ctrl) : (c.sent).rstN = c.rstN := rfl
@[simp] theorem Ctrl.sent_phase (c : Ctrl) : (c.sent).phase = c.phase := rfl
@[simp] theorem Ctrl.sent_cRetry (c : Ctrl) : (c.sent).cRetry = c.cRetry := rfl
@[simp] theorem Ctrl.sent_cstep (c : Ctrl) : (c.sent).cstep = .settle := rfl
@[simp] theorem Ctrl.sent_cTxp (c : Ctrl) : (c.sent).cTxp = c.cTxp := rfl
@[simp] theorem Ctrl.sent_cRxp (c : Ctrl) : (c.sent).cRxp = c.cRxp := rfl
@[simp] theorem Ctrl.sent_rdWhole (c : Ctrl) : (c.sent).rdWhole = c.rdWhole := rfl
@[simp] theorem Ctrl.sent_rdFrac (c : Ctrl) : (c.sent).rdFrac = c.rdFrac := rfl
@[simp] theorem Ctrl.sent_rdValid (c : Ctrl) : (c.sent).rdValid = false := rfl
@[simp] theorem Ctrl.sent_sel (c : Ctrl) : (c.sent).sel = c.sel := rfl
@[simp] theorem Ctrl.sent_out (c : Ctrl) : (c.sent).out = c.out.clear := rfl

@[simp] theorem Ctrl.settled_rstN (c : Ctrl) : (c.settled).rstN = c.rstN := rfl
@[simp] theorem Ctrl.settled_phase (c : Ctrl) : (c.settled).phase = c.phase := rfl
@[simp] theorem Ctrl.settled_cRetry (c : Ctrl) : (c.settled).cRetry = c.cRetry := rfl
@[simp] theorem Ctrl.settled_cstep (c : Ctrl) : (c.settled).cstep = .recv := rfl
@[simp] theorem Ctrl.settled_cTxp (c : Ctrl) : (c.settled).cTxp = c.cTxp := rfl
@[simp] theorem Ctrl.settled_cRxp (c : Ctrl) : (c.settled).cRxp = c.cRxp := rfl
@[simp] theorem Ctrl.settled_rdWhole (c : Ctrl) : (c.settled).rdWhole = c.rdWhole := rfl
@[simp] theorem Ctrl.settled_rdFrac (c : Ctrl) : (c.settled).rdFrac = c.rdFrac := rfl
@[simp] theorem Ctrl.settled_rdValid (c : Ctrl) : (c.settled).rdValid = false := rfl
@[simp] theorem Ctrl.settled_sel (c : Ctrl) : (c.settled).sel = c.sel := rfl
@[simp] theorem Ctrl.settled_out (c : Ctrl) : (c.settled).out = c.out.clear := rfl

@[simp] theorem Ctrl.received_rstN (o : ByteOrder) (b : Bytes4) (c : Ctrl) : (c.received o b).rstN = c.rstN := rfl
@[simp] theorem Ctrl.received_phase (o : ByteOrder) (b : Bytes4) (c : Ctrl) : (c.received o b).phase = c.phase := rfl
@[simp] theorem Ctrl.received_cRetry (o : ByteOrder) (b : Bytes4) (c : Ctrl) : (c.received o b).cRetry = c.cRetry := rfl
@[simp] theorem Ctrl.received_cstep (o : ByteOrder) (b : Bytes4) (c : Ctrl) : (c.received o b).cstep = .deselect := rfl
@[simp] theorem Ctrl.received_cTxp (o : ByteOrder) (b : Bytes4) (c : Ctrl) : (c.received o b).cTxp = c.cTxp := rfl
@[simp] theorem Ctrl.received_cRxp (o : ByteOrder) (b : Bytes4) (c : Ctrl) : (c.received o b).cRxp = (deser o b).word := rfl
@[simp] theorem Ctrl.received_rdWhole (o : ByteOrder) (b : Bytes4) (c : Ctrl) : (c.received o b).rdWhole = c.rdWhole := rfl
@[simp] theorem Ctrl.received_rdFrac (o : ByteOrder) (b : Bytes4) (c : Ctrl) : (c.received o b).rdFrac = c.rdFrac := rfl
@[simp] theorem Ctrl.received_rdValid (o : ByteOrder) (b : Bytes4) (c : Ctrl) : (c.received o b).rdValid = false := rfl
@[simp] theorem Ctrl.received_sel (o : ByteOrder) (b : Bytes4) (c : Ctrl) : (c.received o b).sel = c.sel := rfl
@[simp] theorem Ctrl.received_out (o : ByteOrder) (b : Bytes4) (c : Ctrl) : (c.received o b).out = c.out.clear := rfl

@[simp] theorem Ctrl.deselected_rstN (c : Ctrl) : (c.deselected).rstN = c.rstN := rfl
@[simp] theorem Ctrl.deselected_phase (c : Ctrl) : (c.deselected).phase = c.phase := rfl
@[simp] theorem Ctrl.deselected_cRetry (c : Ctrl) : (c.deselected).cRetry = c.cRetry := rfl
@[simp] theorem Ctrl.deselected_cstep (c : Ctrl) : (c.deselected).cstep = .validate := rfl
@[simp] theorem Ctrl.deselected_cTxp (c : Ctrl) : (c.deselected).cTxp = c.cTxp := rfl
@[simp] theorem Ctrl.deselected_cRxp (c : Ctrl) : (c.deselected).cRxp = c.cRxp := rfl
@[simp] theorem Ctrl.deselected_rdWhole (c : Ctrl) : (c.deselected).rdWhole = c.rdWhole := rfl
@[simp] theorem Ctrl.deselected_rdFrac (c : Ctrl) : (c.deselected).rdFrac = c.rdFrac := rfl
@[simp] theorem Ctrl.deselected_rdValid (c : Ctrl) : (c.deselected).rdValid = false := rfl
@[simp] theorem Ctrl.deselected_sel (c : Ctrl) : (c.deselected).sel = false := rfl
@[simp] theorem Ctrl.deselected_out (c : Ctrl) : (c.deselected).out = c.out.clear := rfl

@[simp] theorem Ctrl.wasReset_rstN (c : Ctrl) : (c.wasReset).rstN = c.rstN := rfl
@[simp] theorem Ctrl.wasReset_phase (c : Ctrl) : (c.wasReset).phase = c.phase := rfl
@[simp] theorem Ctrl.wasReset_cRetry (c : Ctrl) : (c.wasReset).cRetry = c.cRetry := rfl
@[simp] theorem Ctrl.wasReset_cstep (c : Ctrl) : (c.wasReset).cstep = .sleep := rfl
@[simp] theorem Ctrl.wasReset_cTxp (c : Ctrl) : (c.wasReset).cTxp = c.cTxp := rfl
@[simp] theorem Ctrl.wasReset_cRxp (c : Ctrl) : (c.wasReset).cRxp = c.cRxp := rfl
@[simp] theorem Ctrl.wasReset_rdWhole (c : Ctrl) : (c.wasReset).rdWhole = c.rdWhole := rfl
@[simp] theorem Ctrl.wasReset_rdFrac (c : Ctrl) : (c.wasReset).rdFrac = c.rdFrac := rfl
@[simp] theorem Ctrl.wasReset_rdValid (c : Ctrl) : (c.wasReset).rdValid = false := rfl
@[simp] theorem Ctrl.wasReset_sel (c : Ctrl) : (c.wasReset).sel = c.sel := rfl
@[simp] theorem Ctrl.wasReset_out (c : Ctrl) : (c.wasReset).out = c.out.clear := rfl

@[simp] theorem Ctrl.slept_rstN (c : Ctrl) : (c.slept).rstN = c.rstN := rfl
@[simp] theorem Ctrl.slept_phase (c : Ctrl) : (c.slept).phase = c.phase := rfl
@[simp] theorem Ctrl.slept_cRetry (c : Ctrl) : (c.slept).cRetry = c.cRetry := rfl
@[simp] theorem Ctrl.slept_cstep (c : Ctrl) : (c.slept).cstep = .build := rfl
@[simp] theorem Ctrl.slept_cTxp (c : Ctrl) : (c.slept).cTxp = c.cTxp := rfl
@[simp] theorem Ctrl.slept_cRxp (c : Ctrl) : (c.slept).cRxp = c.cRxp := rfl
@[simp] theorem Ctrl.slept_rdWhole (c : Ctrl) : (c.slept).rdWhole = c.rdWhole := rfl
@[simp] theorem Ctrl.slept_rdFrac (c : Ctrl) : (c.slept).rdFrac = c.rdFrac := rfl
@[simp] theorem Ctrl.slept_rdValid (c : Ctrl) : (c.slept).rdValid = false := rfl
@[simp] theorem Ctrl.slept_sel (c : Ctrl) : (c.slept).sel = c.sel := rfl
@[simp] theorem Ctrl.slept_out (c : Ctrl) : (c.slept).out = c.out.clear := rfl

/-! ### Peripheral: the micro-steps -/

@[simp] theorem Per.initedIn_rstN (p : Per) : (p.initedIn).rstN = p.rstN := rfl
@[simp] theorem Per.initedIn_pRetry (p : Per) : (p.initedIn).pRetry = p.pRetry := rfl
@[simp] theorem Per.initedIn_pstep (p : Per) : (p.initedIn).pstep = .initOut := rfl
@[simp] theorem Per.initedIn_pReq (p : Per) : (p.initedIn).pReq = p.pReq := rfl
@[simp] theorem Per.initedIn_pRsp (p : Per) : (p.initedIn).pRsp = p.pRsp := rfl
@[simp] theorem Per.initedIn_pSmp (p : Per) : (p.initedIn).pSmp = p.pSmp := rfl
@[simp] theorem Per.initedIn_pOcnt (p : Per) : (p.initedIn).pOcnt = p.pOcnt := rfl
@[simp] theorem Per.initedIn_pIcnt (p : Per) : (p.initedIn).pIcnt = p.pIcnt := rfl
@[simp] theorem Per.initedIn_out (p : Per) : (p.initedIn).out = p.out.clear := rfl

@[simp] theorem Per.initedOut_rstN (p : Per) : (p.initedOut).rstN = p.rstN := rfl
@[simp] theorem Per.initedOut_pRetry (p : Per) : (p.initedOut).pRetry = p.pRetry := rfl
@[simp] theorem Per.initedOut_pstep (p : Per) : (p.initedOut).pstep = .checkOut := rfl
@[simp] theorem Per.initedOut_pReq (p : Per) : (p.initedOut).pReq = p.pReq := rfl
@[simp] theorem Per.initedOut_pRsp (p : Per) : (p.initedOut).pRsp = p.pRsp := rfl
@[simp] theorem Per.initedOut_pSmp (p : Per) : (p.initedOut).pSmp = p.pSmp := rfl
@[simp] theorem Per.initedOut_pOcnt (p : Per) : (p.initedOut).pOcnt = p.pOcnt := rfl
@[simp] theorem Per.initedOut_pIcnt (p : Per) : (p.initedOut).pIcnt = p.pIcnt := rfl
@[simp] theorem Per.initedOut_out (p : Per) : (p.initedOut).out = p.out.clear := rfl

@[simp] theorem Per.tookOutCount_rstN (k : Nat) (p : Per) : (p.tookOutCount k).rstN = p.rstN := rfl
@[simp] theorem Per.tookOutCount_pRetry (k : Nat) (p : Per) : (p.tookOutCount k).pRetry = p.pRetry := rfl
@[simp] theorem Per.tookOutCount_pstep (k : Nat) (p : Per) : (p.tookOutCount k).pstep = (if k ≠ 0 then .sleep else .checkIn) := rfl
@[simp] theorem Per.tookOutCount_pReq (k : Nat) (p : Per) : (p.tookOutCount k).pReq = p.pReq := rfl
@[simp] theorem Per.tookOutCount_pRsp (k : Nat) (p : Per) : (p.tookOutCount k).pRsp = p.pRsp := rfl
@[simp] theorem Per.tookOutCount_pSmp (k : Nat) (p : Per) : (p.tookOutCount k).pSmp = p.pSmp := rfl
@[simp] theorem Per.tookOutCount_pOcnt (k : Nat) (p : Per) : (p.tookOutCount k).pOcnt = k := rfl
@[simp] theorem Per.tookOutCount_pIcnt (k : Nat) (p : Per) : (p.tookOutCount k).pIcnt = p.pIcnt := rfl
@[simp] theorem Per.tookOutCount_out (k : Nat) (p : Per) : (p.tookOutCount k).out = p.out.clear := rfl

@[simp] theorem Per.tookInCount_rstN (k : Nat) (p : Per) : (p.tookInCount k).rstN = p.rstN := rfl
@[simp] theorem Per.tookInCount_pRetry (k : Nat) (p : Per) : (p.tookInCount k).pRetry = p.pRetry := rfl
@[simp] theorem Per.tookInCount_pstep (k : Nat) (p : Per) : (p.tookInCount k).pstep = (if Config.pktBytes ≤ k then .recv else .sleep) := rfl
@[simp] theorem Per.tookInCount_pReq (k : Nat) (p : Per) : (p.tookInCount k).pReq = p.pReq := rfl
@[simp] theorem Per.tookInCount_pRsp (k : Nat) (p : Per) : (p.tookInCount k).pRsp = p.pRsp := rfl
@[simp] theorem Per.tookInCount_pSmp (k : Nat) (p : Per) : (p.tookInCount k).pSmp = p.pSmp := rfl
@[simp] theorem Per.tookInCount_pOcnt (k : Nat) (p : Per) : (p.tookInCount k).pOcnt = p.pOcnt := rfl
@[simp] theorem Per.tookInCount_pIcnt (k : Nat) (p : Per) : (p.tookInCount k).pIcnt = k := rfl
@[simp] theorem Per.tookInCount_out (k : Nat) (p : Per) : (p.tookInCount k).out = p.out.clear := rfl

@[simp] theorem Per.received_rstN (o : ByteOrder) (b : Bytes4) (p : Per) : (p.received o b).rstN = p.rstN := rfl
@[simp] theorem Per.received_pRetry (o : ByteOrder) (b : Bytes4) (p : Per) : (p.received o b).pRetry = p.pRetry := rfl
@[simp] theorem Per.received_pstep (o : ByteOrder) (b : Bytes4) (p : Per) : (p.received o b).pstep = .disableIn := rfl
@[simp] theorem Per.received_pReq (o : ByteOrder) (b : Bytes4) (p : Per) : (p.received o b).pReq = (deser o b).word := rfl
@[simp] theorem Per.received_pRsp (o : ByteOrder) (b : Bytes4) (p : Per) : (p.received o b).pRsp = p.pRsp := rfl
@[simp] theorem Per.received_pSmp (o : ByteOrder) (b : Bytes4) (p : Per) : (p.received o b).pSmp = p.pSmp := rfl
@[simp] theorem Per.received_pOcnt (o : ByteOrder) (b : Bytes4) (p : Per) : (p.received o b).pOcnt = p.pOcnt := rfl
@[simp] theorem Per.received_pIcnt (o : ByteOrder) (b : Bytes4) (p : Per) : (p.received o b).pIcnt = p.pIcnt := rfl
@[simp] theorem Per.received_out (o : ByteOrder) (b : Bytes4) (p : Per) : (p.received o b).out = p.out.clear := rfl

@[simp] theorem Per.disabledIn_rstN (p : Per) : (p.disabledIn).rstN = p.rstN := rfl
@[simp] theorem Per.disabledIn_pRetry (p : Per) : (p.disabledIn).pRetry = p.pRetry := rfl
@[simp] theorem Per.disabledIn_pstep (p : Per) : (p.disabledIn).pstep = .validate := rfl
@[simp] theorem Per.disabledIn_pReq (p : Per) : (p.disabledIn).pReq = p.pReq := rfl
@[simp] theorem Per.disabledIn_pRsp (p : Per) : (p.disabledIn).pRsp = p.pRsp := rfl
@[simp] theorem Per.disabledIn_pSmp (p : Per) : (p.disabledIn).pSmp = p.pSmp := rfl
@[simp] theorem Per.disabledIn_pOcnt (p : Per) : (p.disabledIn).pOcnt = p.pOcnt := rfl
@[simp] theorem Per.disabledIn_pIcnt (p : Per) : (p.disabledIn).pIcnt = p.pIcnt := rfl
@[simp] theorem Per.disabledIn_out (p : Per) : (p.disabledIn).out = p.out.clear := rfl

@[simp] theorem Per.sampled_rstN (v : BitVec 16) (p : Per) : (p.sampled v).rstN = p.rstN := rfl
@[simp] theorem Per.sampled_pRetry (v : BitVec 16) (p : Per) : (p.sampled v).pRetry = p.pRetry := rfl
@[simp] theorem Per.sampled_pstep (v : BitVec 16) (p : Per) : (p.sampled v).pstep = .send := rfl
@[simp] theorem Per.sampled_pReq (v : BitVec 16) (p : Per) : (p.sampled v).pReq = p.pReq := rfl
@[simp] theorem Per.sampled_pRsp (v : BitVec 16) (p : Per) : (p.sampled v).pRsp = framedWord v := rfl
@[simp] theorem Per.sampled_pSmp (v : BitVec 16) (p : Per) : (p.sampled v).pSmp = v := rfl
@[simp] theorem Per.sampled_pOcnt (v : BitVec 16) (p : Per) : (p.sampled v).pOcnt = p.pOcnt := rfl
@[simp] theorem Per.sampled_pIcnt (v : BitVec 16) (p : Per) : (p.sampled v).pIcnt = p.pIcnt := rfl
@[simp] theorem Per.sampled_out (v : BitVec 16) (p : Per) : (p.sampled v).out = p.out.clear := rfl

@[simp] theorem Per.sent_rstN (p : Per) : (p.sent).rstN = p.rstN := rfl
@[simp] theorem Per.sent_pRetry (p : Per) : (p.sent).pRetry = p.pRetry := rfl
@[simp] theorem Per.sent_pstep (p : Per) : (p.sent).pstep = .enableIn := rfl
@[simp] theorem Per.sent_pReq (p : Per) : (p.sent).pReq = p.pReq := rfl
@[simp] theorem Per.sent_pRsp (p : Per) : (p.sent).pRsp = p.pRsp := rfl
@[simp] theorem Per.sent_pSmp (p : Per) : (p.sent).pSmp = p.pSmp := rfl
@[simp] theorem Per.sent_pOcnt (p : Per) : (p.sent).pOcnt = p.pOcnt := rfl
@[simp] theorem Per.sent_pIcnt (p : Per) : (p.sent).pIcnt = p.pIcnt := rfl
@[simp] theorem Per.sent_out (p : Per) : (p.sent).out = p.out.clear := rfl

@[simp] theorem Per.wasReset_rstN (p : Per) : (p.wasReset).rstN = p.rstN := rfl
@[simp] theorem Per.wasReset_pRetry (p : Per) : (p.wasReset).pRetry = p.pRetry := rfl
@[simp] theorem Per.wasReset_pstep (p : Per) : (p.wasReset).pstep = .enableOut := rfl
@[simp] theorem Per.wasReset_pReq (p : Per) : (p.wasReset).pReq = p.pReq := rfl
@[simp] theorem Per.wasReset_pRsp (p : Per) : (p.wasReset).pRsp = p.pRsp := rfl
@[simp] theorem Per.wasReset_pSmp (p : Per) : (p.wasReset).pSmp = p.pSmp := rfl
@[simp] theorem Per.wasReset_pOcnt (p : Per) : (p.wasReset).pOcnt = p.pOcnt := rfl
@[simp] theorem Per.wasReset_pIcnt (p : Per) : (p.wasReset).pIcnt = p.pIcnt := rfl
@[simp] theorem Per.wasReset_out (p : Per) : (p.wasReset).out = p.out.clear := rfl

@[simp] theorem Per.enabledOut_rstN (p : Per) : (p.enabledOut).rstN = p.rstN := rfl
@[simp] theorem Per.enabledOut_pRetry (p : Per) : (p.enabledOut).pRetry = p.pRetry := rfl
@[simp] theorem Per.enabledOut_pstep (p : Per) : (p.enabledOut).pstep = .enableIn := rfl
@[simp] theorem Per.enabledOut_pReq (p : Per) : (p.enabledOut).pReq = p.pReq := rfl
@[simp] theorem Per.enabledOut_pRsp (p : Per) : (p.enabledOut).pRsp = p.pRsp := rfl
@[simp] theorem Per.enabledOut_pSmp (p : Per) : (p.enabledOut).pSmp = p.pSmp := rfl
@[simp] theorem Per.enabledOut_pOcnt (p : Per) : (p.enabledOut).pOcnt = p.pOcnt := rfl
@[simp] theorem Per.enabledOut_pIcnt (p : Per) : (p.enabledOut).pIcnt = p.pIcnt := rfl
@[simp] theorem Per.enabledOut_out (p : Per) : (p.enabledOut).out = p.out.clear := rfl

@[simp] theorem Per.enabledIn_rstN (p : Per) : (p.enabledIn).rstN = p.rstN := rfl
@[simp] theorem Per.enabledIn_pRetry (p : Per) : (p.enabledIn).pRetry = p.pRetry := rfl
@[simp] theorem Per.enabledIn_pstep (p : Per) : (p.enabledIn).pstep = .sleep := rfl
@[simp] theorem Per.enabledIn_pReq (p : Per) : (p.enabledIn).pReq = p.pReq := rfl
@[simp] theorem Per.enabledIn_pRsp (p : Per) : (p.enabledIn).pRsp = p.pRsp := rfl
@[simp] theorem Per.enabledIn_pSmp (p : Per) : (p.enabledIn).pSmp = p.pSmp := rfl
@[simp] theorem Per.enabledIn_pOcnt (p : Per) : (p.enabledIn).pOcnt = p.pOcnt := rfl
@[simp] theorem Per.enabledIn_pIcnt (p : Per) : (p.enabledIn).pIcnt = p.pIcnt := rfl
@[simp] theorem Per.enabledIn_out (p : Per) : (p.enabledIn).out = p.out.clear := rfl

@[simp] theorem Per.slept_rstN (p : Per) : (p.slept).rstN = p.rstN := rfl
@[simp] theorem Per.slept_pRetry (p : Per) : (p.slept).pRetry = p.pRetry := rfl
@[simp] theorem Per.slept_pstep (p : Per) : (p.slept).pstep = .checkOut := rfl
@[simp] theorem Per.slept_pReq (p : Per) : (p.slept).pReq = p.pReq := rfl
@[simp] theorem Per.slept_pRsp (p : Per) : (p.slept).pRsp = p.pRsp := rfl
@[simp] theorem Per.slept_pSmp (p : Per) : (p.slept).pSmp = p.pSmp := rfl
@[simp] theorem Per.slept_pOcnt (p : Per) : (p.slept).pOcnt = p.pOcnt := rfl
@[simp] theorem Per.slept_pIcnt (p : Per) : (p.slept).pIcnt = p.pIcnt := rfl
@[simp] theorem Per.slept_out (p : Per) : (p.slept).out = p.out.clear := rfl

/-! ### The branching operations -/

theorem cSpent_iff (count : Nat) : cSpent count = true ↔ 5 < count :=
  decide_eq_true_iff

theorem pSpent_iff (count : Nat) : pSpent count = true ↔ 25 < count :=
  decide_eq_true_iff

/-- `C_POST` when the budget is spent (R141). -/
theorem Ctrl.posted_of_spent {c : Ctrl} (h : 5 < c.cRetry) : c.posted = c.begin.recover.goto .reset :=
  if_pos ((cSpent_iff _).2 h)

/-- `C_POST` when it is not (R141). -/
theorem Ctrl.posted_of_not_spent {c : Ctrl} (h : ¬5 < c.cRetry) : c.posted = c.begin.goto .sleep :=
  if_neg (mt (cSpent_iff _).1 h)

/-- Noise when the budget is spent (R177). -/
theorem Per.countNoise_of_spent {w : Nat} {clear : Bool} {h : Half} {p : Per} (hs : 25 < satInc w p.pRetry) :
    p.countNoise w clear h =
      { p with
        pRetry := if clear then 0 else satInc w p.pRetry
        pstep := .reset
        out := (p.out.raise 0#16 (.eFrame h)).raise 0#16 .eBudget } :=
  if_pos ((pSpent_iff _).2 hs)

/-- Noise when it is not (R177). -/
theorem Per.countNoise_of_not_spent {w : Nat} {clear : Bool} {h : Half} {p : Per} (hs : ¬25 < satInc w p.pRetry) :
    p.countNoise w clear h =
      { p with
        pRetry := satInc w p.pRetry
        pstep := .enableIn
        out := p.out.raise 0#16 (.eFrame h) } :=
  if_neg (mt (pSpent_iff _).1 hs)

/-- The count grows by at most one (R17). -/
theorem satInc_le (w count : Nat) : satInc w count ≤ count + 1 := by
  unfold satInc
  split <;> omega

/-- With a counter of at least five bits the count below 31 grows by exactly one (R257, D8). -/
theorem satInc_eq {w count : Nat} (hw : 5 ≤ w) (hc : count < 31) : satInc w count = count + 1 := by
  have h : 2 ^ 5 ≤ 2 ^ w := Nat.pow_le_pow_right (by decide) hw
  exact if_pos (by omega)

end Sys2Proof.Machine
end

