-- ==== Sys2Proof/Laws/Exec.lean ====
section
/-! SUPPORT. What `exec` can do, said once: a request answers a next state that changes the peripheral block alone, a
response in its phase one that changes the controller block alone, and which of the rules R136 to R139, R176 to R181
applies to a decoded word. -/

namespace Sys2Proof.Machine

theorem State.perStep_eq (f : Per → Per) (s : State) : s.perStep f = .next { s with per := f s.per.begin } := rfl

theorem State.ctrlStep_eq (f : Ctrl → Ctrl) (s : State) : s.ctrlStep f = .next { s with ctrl := f s.ctrl.begin } := rfl

/-- A response row in its phase. -/
theorem State.judge_of_phase {ph : Phase} {f : Ctrl → Ctrl} {s : State} (h : s.ctrl.phase = ph) :
    s.judge ph f = .next { s with ctrl := (f s.ctrl.begin).goto .post } := if_pos h

/-- A response row in another phase. -/
theorem State.judge_of_ne {ph : Phase} {f : Ctrl → Ctrl} {s : State} (h : s.ctrl.phase ≠ ph) :
    s.judge ph f = .refused .outOfContext := if_neg h

/-- Everything a request can do (R176 to R181), by the word it is decoded from. -/
theorem exec_request_cases (w : Word) (s : State) :
    (headerOf w ≠ 0xC819#16 ∧
      exec (decodeRequestWord w) s = .next { s with
        per := s.per.begin.countNoise s.params.retryW s.params.perClearOnReset (headerOf w) }) ∨
    (headerOf w = 0xC819#16 ∧
      ((payloadOf w = 0x0001#16 ∧
          exec (decodeRequestWord w) s = .next { s with
            per := (s.per.begin.acceptFrame.reply Config.idConst).goto .send }) ∨
        (payloadOf w = 0x0002#16 ∧
          exec (decodeRequestWord w) s = .next { s with
            per := (s.per.begin.acceptFrame.reply Config.unitConst).goto .send }) ∨
        (payloadOf w = 0x0003#16 ∧
          exec (decodeRequestWord w) s = .next { s with per := s.per.begin.acceptFrame.goto .sample }) ∨
        (payloadOf w ≠ 0x0001#16 ∧ payloadOf w ≠ 0x0002#16 ∧ payloadOf w ≠ 0x0003#16 ∧
          exec (decodeRequestWord w) s = .next { s with
            per := (s.per.begin.acceptFrame.raise (.eUnknownCmd (payloadOf w))).goto .enableIn }))) := by
  by_cases hf : headerOf w = 0xC819#16
  · refine .inr ⟨hf, ?_⟩
    have hd := (framed_iff w).2 hf
    unfold decodeRequestWord Config.cmdGetIdentity Config.cmdGetUnit Config.cmdGetMeasurement
    rw [if_pos hd]
    split
    · exact .inl ⟨‹_›, rfl⟩
    · split
      · exact .inr (.inl ⟨‹_›, rfl⟩)
      · split
        · exact .inr (.inr (.inl ⟨‹_›, rfl⟩))
        · exact .inr (.inr (.inr ⟨‹_›, ‹_›, ‹_›, rfl⟩))
  · refine .inl ⟨hf, ?_⟩
    have hd := (framed_eq_false w).2 hf
    unfold decodeRequestWord
    rw [if_neg (by simp [hd])]
    rfl

/-- The success of a phase: what the expected response leaves (R137, R138, R139). -/
def Ctrl.accept (payload : Half) (c : Ctrl) : Ctrl :=
  match c.phase with
  | .detectDevice => c.succeed .readUnit
  | .readUnit => c.succeed .readMeasurement
  | .readMeasurement => (c.succeed .readMeasurement).emitReading payload

/-! What a success leaves in each field but the phase, the count and the reading. -/

@[simp] theorem Ctrl.accept_rstN (c : Ctrl) (v : Half) : (c.accept v).rstN = c.rstN := by
  unfold Ctrl.accept; split <;> rfl
@[simp] theorem Ctrl.accept_cRetry (c : Ctrl) (v : Half) : (c.accept v).cRetry = 0 := by
  unfold Ctrl.accept; split <;> rfl
@[simp] theorem Ctrl.accept_cTxp (c : Ctrl) (v : Half) : (c.accept v).cTxp = c.cTxp := by
  unfold Ctrl.accept; split <;> rfl
@[simp] theorem Ctrl.accept_cRxp (c : Ctrl) (v : Half) : (c.accept v).cRxp = c.cRxp := by
  unfold Ctrl.accept; split <;> rfl
@[simp] theorem Ctrl.accept_sel (c : Ctrl) (v : Half) : (c.accept v).sel = c.sel := by
  unfold Ctrl.accept; split <;> rfl
@[simp] theorem Ctrl.accept_phase (c : Ctrl) (v : Half) : (c.accept v).phase = nextPhase c.phase := by
  unfold Ctrl.accept; split <;> simp_all [nextPhase]

/-- The payload a phase expects; ReadMeasurement expects every one (R38). -/
def expected : Phase → Half → Prop
  | .detectDevice, p => p = 0x000A#16
  | .readUnit, p => p = 0x000B#16
  | .readMeasurement, _ => True

/-- Everything a response can do in the phase it is decoded in (R136 to R139, R145). -/
theorem exec_response_cases (w : Word) (s : State) :
    (headerOf w ≠ 0xC819#16 ∧
      exec (decodeResponseWord s.ctrl.phase w) s = .next { s with
        ctrl := (s.ctrl.begin.countFailure s.params.retryW (.eFrame (headerOf w))).goto .post }) ∨
    (headerOf w = 0xC819#16 ∧ expected s.ctrl.phase (payloadOf w) ∧
      exec (decodeResponseWord s.ctrl.phase w) s = .next { s with
        ctrl := (s.ctrl.begin.accept (payloadOf w)).goto .post }) ∨
    (headerOf w = 0xC819#16 ∧ ¬expected s.ctrl.phase (payloadOf w) ∧
      exec (decodeResponseWord s.ctrl.phase w) s = .next { s with
        ctrl := (s.ctrl.begin.countFailure s.params.retryW (.eSemantic (payloadOf w))).goto .post }) := by
  by_cases hf : headerOf w = 0xC819#16
  · refine .inr ?_
    have hd := (framed_iff w).2 hf
    cases hp : s.ctrl.phase
    · by_cases he : payloadOf w = 0x000A#16
      · exact .inl ⟨hf, he, by
          simp [decodeResponseWord, hd, Config.idConst, he, exec, execRspIdentity, State.judge, State.ctrlStep,
            Ctrl.accept, hp]⟩
      · exact .inr ⟨hf, he, by
          simp [decodeResponseWord, hd, Config.idConst, he, exec, execRspMismatchDetect, State.judge, State.ctrlStep,
            hp]⟩
    · by_cases he : payloadOf w = 0x000B#16
      · exact .inl ⟨hf, he, by
          simp [decodeResponseWord, hd, Config.unitConst, he, exec, execRspUnit, State.judge, State.ctrlStep,
            Ctrl.accept, hp]⟩
      · exact .inr ⟨hf, he, by
          simp [decodeResponseWord, hd, Config.unitConst, he, exec, execRspMismatchUnit, State.judge, State.ctrlStep,
            hp]⟩
    · refine .inl ⟨hf, trivial, ?_⟩
      simp [decodeResponseWord, hd, exec, execRspMeasurement, State.judge, State.ctrlStep, Ctrl.accept, hp]
  · refine .inl ⟨hf, ?_⟩
    have hd := (framed_eq_false w).2 hf
    cases hp : s.ctrl.phase <;>
      simp [decodeResponseWord, hd, exec, execRspNoiseDetect, execRspNoiseUnit, execRspNoiseMeasurement, State.judge,
        State.ctrlStep, hp]

/-- A decoded request changes the peripheral block alone. -/
theorem exec_request_next (w : Word) (s : State) :
    ∃ p, exec (decodeRequestWord w) s = .next { s with per := p } := by
  rcases exec_request_cases w s with ⟨-, h⟩ | ⟨-, ⟨-, h⟩ | ⟨-, h⟩ | ⟨-, h⟩ | ⟨-, -, -, h⟩⟩ <;> exact ⟨_, h⟩

/-- A response decoded in the controller's phase changes the controller block alone. -/
theorem exec_response_next (w : Word) (s : State) :
    ∃ c, exec (decodeResponseWord s.ctrl.phase w) s = .next { s with ctrl := c } := by
  rcases exec_response_cases w s with ⟨-, h⟩ | ⟨-, -, h⟩ | ⟨-, -, h⟩ <;> exact ⟨_, h⟩

end Sys2Proof.Machine
end

