-- ==== Sys2Proof/Laws/Step.lean ====
section
/-! SUPPORT. What a step can do, said once: whose turn it is (`step_of_running`, `step_next`), what a beat leaves in
each field of the link, and what each micro-step of the two blocks answers. -/

namespace Sys2Proof.Machine

/-! ### Beats -/

@[simp] theorem BeatKind.first_sending (b : Bytes4) (i : Nat) (d : Byte) :
    (BeatKind.sending b i d).first = (i == 0) := rfl
@[simp] theorem BeatKind.first_receiving (acc : List Byte) : (BeatKind.receiving acc).first = acc.isEmpty := rfl

theorem upstream_fst (ok : DrawRule) (l : Link) (n : Inputs) :
    (upstream ok l n).1 = if l.outEn then l.outFifo.headD (n.underflow ok) else n.underflow ok := by
  unfold upstream
  split
  · split <;> simp_all
  · rfl

theorem upstream_link (ok : DrawRule) (l : Link) (n : Inputs) :
    (upstream ok l n).2.1 = { l with outFifo := if l.outEn then l.outFifo.tail else l.outFifo } := by
  unfold upstream
  rcases l with ⟨i, o, ie, oe, sw, x, ov⟩
  cases oe
  · rfl
  · cases o <;> rfl

/-- The inputs a beat's upstream half uses are underflow bytes alone. -/
theorem upstream_inputs (ok : DrawRule) (l : Link) (n : Inputs) :
    (upstream ok l n).2.2 = n ∨ (upstream ok l n).2.2 = n.dropUnderflow (n.underflow ok) := by
  unfold upstream
  split
  · split
    · exact .inl rfl
    · exact .inr rfl
  · exact .inr rfl

theorem Link.take_eq (depth : Nat) (d : Byte) (l : Link) :
    l.take depth d = { l with
      inFifo := if l.inEn = true ∧ l.inFifo.length < depth then l.inFifo ++ [d] else l.inFifo
      overrun := l.overrun || (l.inEn && decide (depth ≤ l.inFifo.length)) } := by
  rcases l with ⟨i, o, ie, oe, sw, x, ov⟩
  unfold Link.take
  cases ie
  · simp
  · by_cases h : i.length < depth
    · simp [h, Nat.not_le.2 h]
    · simp [h, Nat.not_lt.1 h]

/-- Everything a beat of a `send` leaves in the link (R265). -/
theorem beatOn_sending (p : Params) (b : Bytes4) (i : Nat) (d : Byte) (l : Link) (n : Inputs) :
    (beatOn p (.sending b i d) l n).1 = { l with
      outFifo := if l.outEn then l.outFifo.tail else l.outFifo
      inFifo := if l.inEn = true ∧ l.inFifo.length < p.inDepth then l.inFifo ++ [d] else l.inFifo
      overrun := l.overrun || (l.inEn && decide (p.inDepth ≤ l.inFifo.length))
      xfer := .send b (i + 1) } := by
  simp only [beatOn, upstream_link, Link.take_eq]

/-- Everything a beat of a `receive` leaves in the link (R265). -/
theorem beatOn_receiving (p : Params) (acc : List Byte) (l : Link) (n : Inputs) :
    (beatOn p (.receiving acc) l n).1 = { l with
      outFifo := if l.outEn then l.outFifo.tail else l.outFifo
      inFifo := if l.inEn = true ∧ l.inFifo.length < p.inDepth then l.inFifo ++ [n.fill p.fillOk] else l.inFifo
      overrun := l.overrun || (l.inEn && decide (p.inDepth ≤ l.inFifo.length))
      xfer := .recv (acc ++
        [if l.outEn then l.outFifo.headD (n.underflow p.underflowOk) else n.underflow p.underflowOk]) } := by
  simp only [beatOn, upstream_link, upstream_fst, Link.take_eq]

/-- A beat leaves the schedule and the samples as they are. -/
theorem beatOn_inputs (p : Params) (k : BeatKind) (l : Link) (n : Inputs) :
    (beatOn p k l n).2.tick = n.tick ∧ (beatOn p k l n).2.sched = n.sched ∧
      (beatOn p k l n).2.samples = n.samples := by
  cases k <;> rcases upstream_inputs p.underflowOk l n with h | h <;> simp [beatOn, h]

/-- What a beat draws keeps the draws of its transfer within the two predicates (R266). -/
theorem beatOn_allowed (p : Params) (k : BeatKind) (l : Link) {n : Inputs} (h : n.drawsAllowed p = true) :
    (beatOn p k l n).2.drawsAllowed p = true := by
  cases k with
  | sending b i d =>
    rcases upstream_inputs p.underflowOk l n with e | e <;> simp only [beatOn, e]
    · exact h
    · exact Inputs.dropUnderflow_allowed h
  | receiving acc =>
    have hd : p.fillOk.allows (n.fillsDrawn.now ++ [n.fill p.fillOk]) = true :=
      DrawRule.allows_draw ((Inputs.drawsAllowed_iff p n).1 h).1 _
    rcases upstream_inputs p.underflowOk l n with e | e <;> simp only [beatOn, e]
    · exact Inputs.dropFill_allowed h hd
    · exact Inputs.dropFill_allowed (Inputs.dropUnderflow_allowed h) hd

/-- A beat of a `receive` records its fill byte. -/
theorem beatOn_fillsDrawn (p : Params) (acc : List Byte) (l : Link) (n : Inputs) :
    (beatOn p (.receiving acc) l n).2.fillsDrawn = n.fillsDrawn.took (n.fill p.fillOk) := by
  rcases upstream_inputs p.underflowOk l n with e | e <;> simp [beatOn, e]

/-- When a beat is enabled, and which (R265). -/
theorem Link.beatKind_eq_some {l : Link} {k : BeatKind} (h : l.beatKind = some k) :
    l.selW = true ∧
      ((∃ b i d, k = .sending b i d ∧ l.xfer = .send b i ∧ b.toList[i]? = some d ∧ i < 4) ∨
        (∃ acc, k = .receiving acc ∧ l.xfer = .recv acc ∧ acc.length < 4)) := by
  unfold Link.beatKind at h
  split at h
  · refine ⟨‹_›, ?_⟩
    split at h
    · cases h
    · rename_i b i hx
      obtain ⟨d, hd, rfl⟩ := Option.map_eq_some_iff.1 h
      refine .inl ⟨b, i, d, rfl, hx, hd, ?_⟩
      exact (List.getElem?_eq_some_iff.1 hd).1
    · split at h
      · rename_i acc hx ha
        cases h
        exact .inr ⟨acc, rfl, hx, ha⟩
      · cases h
  · cases h

/-! ### Micro-steps by their place in the sequence -/

section
variable {s : State}

theorem controllerStep_build (h : s.ctrl.cstep = .build) :
    controllerStep s = .next { s with ctrl := s.ctrl.build } := by simp [controllerStep, h, State.ctrlLink]

theorem controllerStep_select (h : s.ctrl.cstep = .select) :
    controllerStep s = .next { s with ctrl := s.ctrl.selected, link := s.link.select true } := by
  simp [controllerStep, h, State.ctrlLink]

theorem controllerStep_send (h : s.ctrl.cstep = .send) : controllerStep s = controllerSend s := by
  simp [controllerStep, h]

theorem controllerStep_settle (h : s.ctrl.cstep = .settle) :
    controllerStep s = .next { s with ctrl := s.ctrl.settled } := by simp [controllerStep, h, State.ctrlLink]

theorem controllerStep_recv (h : s.ctrl.cstep = .recv) : controllerStep s = controllerRecv s := by
  simp [controllerStep, h]

theorem controllerStep_deselect (h : s.ctrl.cstep = .deselect) :
    controllerStep s = .next { s with ctrl := s.ctrl.deselected, link := s.link.select false } := by
  simp [controllerStep, h, State.ctrlLink]

theorem controllerStep_validate (h : s.ctrl.cstep = .validate) :
    controllerStep s = exec (decodeResponseWord s.ctrl.phase s.ctrl.cRxp) s := by
  simp [controllerStep, h, State.response]

theorem controllerStep_post (h : s.ctrl.cstep = .post) :
    controllerStep s = .next { s with ctrl := s.ctrl.posted } := by simp [controllerStep, h, State.ctrlLink]

theorem controllerStep_reset (h : s.ctrl.cstep = .reset) :
    controllerStep s = .next { s with ctrl := s.ctrl.wasReset } := by simp [controllerStep, h, State.ctrlLink]

theorem controllerStep_sleep (h : s.ctrl.cstep = .sleep) :
    controllerStep s = .next { s with ctrl := s.ctrl.slept } := by simp [controllerStep, h, State.ctrlLink]

theorem peripheralStep_initIn (h : s.per.pstep = .initIn) :
    peripheralStep s = .next { s with per := s.per.initedIn, link := s.link.enableInbound } := by
  simp [peripheralStep, h, State.perLink]

theorem peripheralStep_initOut (h : s.per.pstep = .initOut) :
    peripheralStep s = .next { s with per := s.per.initedOut, link := s.link.enableOutbound } := by
  simp [peripheralStep, h, State.perLink]

theorem peripheralStep_checkOut (h : s.per.pstep = .checkOut) :
    peripheralStep s = .next { s with per := s.per.tookOutCount s.link.outFifo.length } := by
  simp [peripheralStep, h, State.perLink, Link.outboundPending]

theorem peripheralStep_checkIn (h : s.per.pstep = .checkIn) :
    peripheralStep s = .next { s with per := s.per.tookInCount s.link.inFifo.length } := by
  simp [peripheralStep, h, State.perLink, Link.inboundPending]

theorem peripheralStep_recv (h : s.per.pstep = .recv) : peripheralStep s = peripheralRecv s := by
  simp [peripheralStep, h]

theorem peripheralStep_disableIn (h : s.per.pstep = .disableIn) :
    peripheralStep s = .next { s with per := s.per.disabledIn, link := s.link.disableInbound } := by
  simp [peripheralStep, h, State.perLink]

theorem peripheralStep_validate (h : s.per.pstep = .validate) :
    peripheralStep s = exec (decodeRequestWord s.per.pReq) s := by
  simp [peripheralStep, h, State.request]

theorem peripheralStep_sample (h : s.per.pstep = .sample) :
    peripheralStep s =
      .next { s with per := s.per.sampled s.inputs.sample, inputs := s.inputs.dropSample } := by
  simp [peripheralStep, h, peripheralSample]

theorem peripheralStep_send (h : s.per.pstep = .send) : peripheralStep s = peripheralSend s := by
  simp [peripheralStep, h]

theorem peripheralStep_reset (h : s.per.pstep = .reset) :
    peripheralStep s = .next { s with per := s.per.wasReset, link := s.link.resetPeripheral } := by
  simp [peripheralStep, h, State.perLink]

theorem peripheralStep_enableOut (h : s.per.pstep = .enableOut) :
    peripheralStep s = .next { s with per := s.per.enabledOut, link := s.link.enableOutbound } := by
  simp [peripheralStep, h, State.perLink]

theorem peripheralStep_enableIn (h : s.per.pstep = .enableIn) :
    peripheralStep s = .next { s with per := s.per.enabledIn, link := s.link.enableInbound } := by
  simp [peripheralStep, h, State.perLink]

theorem peripheralStep_sleep (h : s.per.pstep = .sleep) :
    peripheralStep s = .next { s with per := s.per.slept } := by simp [peripheralStep, h, State.perLink]

/-! ### The steps that depend on the link -/

/-- `C_SEND`: issued, held, or complete (R263). -/
theorem controllerSend_cases (s : State) :
    (s.link.xfer = .idle ∧
      controllerSend s =
        .next { s with ctrl := s.ctrl.begin, link := s.link.issueSend (s.ctrl.txBytes s.params.cOrder) }) ∨
    ((∃ b, s.link.xfer = .send b 4) ∧
      controllerSend s = .next { s with ctrl := s.ctrl.sent, link := s.link.finish }) ∨
    (((∃ b i, s.link.xfer = .send b i ∧ i ≠ 4) ∨ ∃ acc, s.link.xfer = .recv acc) ∧ controllerSend s = .next s) := by
  unfold controllerSend
  cases hx : s.link.xfer with
  | idle => exact .inl ⟨rfl, rfl⟩
  | send b i =>
    by_cases hi : i = 4
    · subst hi
      exact .inr (.inl ⟨⟨b, rfl⟩, rfl⟩)
    · exact .inr (.inr ⟨.inl ⟨b, i, rfl, hi⟩, if_neg hi⟩)
  | recv acc => exact .inr (.inr ⟨.inr ⟨acc, rfl⟩, rfl⟩)

/-- `C_RECV`: issued, held, or complete (R264). -/
theorem controllerRecv_cases (s : State) :
    (s.link.xfer = .idle ∧
      controllerRecv s = .next { s with ctrl := s.ctrl.begin, link := s.link.issueRecv }) ∨
    ((∃ (b : Bytes4) (rest : List Byte), s.link.xfer = .recv (b.toList ++ rest) ∧
      controllerRecv s =
        .next { s with ctrl := s.ctrl.received s.params.cOrder b, link := s.link.finish })) ∨
    (((∃ b i, s.link.xfer = .send b i) ∨ ∃ acc, s.link.xfer = .recv acc ∧ acc.length < 4) ∧
      controllerRecv s = .next s) := by
  unfold controllerRecv
  cases hx : s.link.xfer with
  | idle => exact .inl ⟨rfl, rfl⟩
  | send b i => exact .inr (.inr ⟨.inl ⟨b, i, rfl⟩, rfl⟩)
  | recv acc =>
    cases ht : takeBytes4 acc with
    | some r => exact .inr (.inl ⟨r.1, r.2, by rw [takeBytes4_eq_some ht], by simp [ht, State.ctrlLink]⟩)
    | none =>
      refine .inr (.inr ⟨.inr ⟨acc, rfl, ?_⟩, by simp [ht]⟩)
      by_contra hl
      have := (takeBytes4_isSome acc).2 (by omega)
      simp [ht] at this

/-- `P_RECV`: four bytes are there and are taken, or the step is refused (R174, R268). -/
theorem peripheralRecv_cases (s : State) :
    (∃ (b : Bytes4) (rest : List Byte), s.link.inFifo = b.toList ++ rest ∧
      peripheralRecv s =
        .next { s with per := s.per.received s.params.pOrder b, link := { s.link with inFifo := rest } }) ∨
    (s.link.inFifo.length < 4 ∧ peripheralRecv s = .refused .receiveShort) := by
  unfold peripheralRecv Link.receive
  cases ht : takeBytes4 s.link.inFifo with
  | some r => exact .inl ⟨r.1, r.2, takeBytes4_eq_some ht, rfl⟩
  | none =>
    refine .inr ⟨?_, rfl⟩
    by_contra hl
    have := (takeBytes4_isSome s.link.inFifo).2 (by omega)
    simp [ht] at this

theorem Link.canSend_iff (depth : Nat) (l : Link) :
    l.canSend depth = true ↔ l.outEn = true ∧ l.outFifo.length + 4 ≤ depth := by
  unfold Link.canSend
  rw [Bool.and_eq_true, decide_eq_true_iff]
  rfl

/-- `P_SEND`: the reply is queued, or the step is refused (R182, R268). -/
theorem peripheralSend_cases (s : State) :
    ((s.link.outEn = true ∧ s.link.outFifo.length + 4 ≤ s.params.outDepth) ∧
      peripheralSend s =
        .next { s with per := s.per.sent, link := s.link.queue (s.per.txBytes s.params.pOrder) }) ∨
    (¬(s.link.outEn = true ∧ s.link.outFifo.length + 4 ≤ s.params.outDepth) ∧
      peripheralSend s = .refused .sendNotReady) := by
  unfold peripheralSend
  by_cases h : s.link.canSend s.params.outDepth = true
  · exact .inl ⟨(Link.canSend_iff _ _).1 h, if_pos h⟩
  · exact .inr ⟨mt (Link.canSend_iff _ _).2 h, if_neg h⟩

end

/-! ### Turns -/

/-- A step of a run that has not faulted, with no transfer abandoned by a reset, is the turn of the agent chosen. -/
theorem step_of_running {s : State} (hc : s.ctrl.rstN = true ∨ s.link.xfer = .idle) (ho : s.link.overrun = false) :
    step s = agentTurn s.inputs.turn s.advance := by
  rcases hc with hc | hc <;> simp [step, runStep, hc, ho]

/-- Where a step answers a next state, the agent chosen has had its turn. -/
theorem step_next {s t : State} (h : step s = .next t) :
    s.link.overrun = false ∧ agentTurn s.inputs.turn s.advance = .next t := by
  unfold step runStep at h
  split at h
  · cases h
  · split at h
    · cases h
    · rename_i ho _
      exact ⟨by simpa using ho, h⟩

/-- A step of a run that has faulted. -/
theorem step_of_overrun {s : State} (h : s.link.overrun = true) : ∃ r, step s = .fault r := by
  exact ⟨_, if_pos h⟩

end Sys2Proof.Machine
end

