-- ==== Sys2Proof/Laws/Cycle.lean ====
section
/-! SUPPORT. The micro-steps of each role run alone, by their place in the sequence, and how one of them extends a run. -/

namespace Sys2Proof.Machine

/-! ### The controller alone -/

section
variable {s t : State} {b : Bytes4}

theorem controllerAlone_build (h : s.ctrl.cstep = .build) :
    controllerAlone b s = .next { s with ctrl := Ctrl.build s.ctrl } := by unfold controllerAlone; rw [h]; rfl

theorem controllerAlone_select (h : s.ctrl.cstep = .select) :
    controllerAlone b s = .next { s with ctrl := Ctrl.selected s.ctrl } := by unfold controllerAlone; rw [h]; rfl

theorem controllerAlone_send (h : s.ctrl.cstep = .send) :
    controllerAlone b s = .next { s with ctrl := Ctrl.sent s.ctrl } := by unfold controllerAlone; rw [h]; rfl

theorem controllerAlone_settle (h : s.ctrl.cstep = .settle) :
    controllerAlone b s = .next { s with ctrl := Ctrl.settled s.ctrl } := by unfold controllerAlone; rw [h]; rfl

theorem controllerAlone_recv (h : s.ctrl.cstep = .recv) :
    controllerAlone b s = .next { s with ctrl := Ctrl.received s.params.cOrder b s.ctrl } := by unfold controllerAlone; rw [h]; rfl

theorem controllerAlone_deselect (h : s.ctrl.cstep = .deselect) :
    controllerAlone b s = .next { s with ctrl := Ctrl.deselected s.ctrl } := by unfold controllerAlone; rw [h]; rfl

theorem controllerAlone_post (h : s.ctrl.cstep = .post) :
    controllerAlone b s = .next { s with ctrl := Ctrl.posted s.ctrl } := by unfold controllerAlone; rw [h]; rfl

theorem controllerAlone_reset (h : s.ctrl.cstep = .reset) :
    controllerAlone b s = .next { s with ctrl := Ctrl.wasReset s.ctrl } := by unfold controllerAlone; rw [h]; rfl

theorem controllerAlone_sleep (h : s.ctrl.cstep = .sleep) :
    controllerAlone b s = .next { s with ctrl := Ctrl.slept s.ctrl } := by unfold controllerAlone; rw [h]; rfl

theorem controllerAlone_validate (h : s.ctrl.cstep = .validate) :
    controllerAlone b s = exec (decodeResponseWord s.ctrl.phase s.ctrl.cRxp) s := by
  unfold controllerAlone; rw [h]; rfl

/-- One micro-step more in front of a run. -/
theorem controllerAloneRun_succ {k : Nat} {r : State × List Op} (h : controllerAlone b s = .next t)
    (hr : controllerAloneRun b k t = some r) :
    controllerAloneRun b (k + 1) s = some (r.1, (s.ctrl.op s.params.cOrder).toList ++ r.2) := by
  simp only [controllerAloneRun, h, hr, Option.map_some]

end

/-! ### The peripheral alone -/

section
variable {s t : State} {a : PerAnswers}

theorem peripheralAlone_initIn (h : s.per.pstep = .initIn) :
    peripheralAlone a s = .next { s with per := Per.initedIn s.per } := by unfold peripheralAlone; rw [h]; rfl

theorem peripheralAlone_initOut (h : s.per.pstep = .initOut) :
    peripheralAlone a s = .next { s with per := Per.initedOut s.per } := by unfold peripheralAlone; rw [h]; rfl

theorem peripheralAlone_checkOut (h : s.per.pstep = .checkOut) :
    peripheralAlone a s = .next { s with per := Per.tookOutCount a.oc s.per } := by unfold peripheralAlone; rw [h]; rfl

theorem peripheralAlone_checkIn (h : s.per.pstep = .checkIn) :
    peripheralAlone a s = .next { s with per := Per.tookInCount a.ic s.per } := by unfold peripheralAlone; rw [h]; rfl

theorem peripheralAlone_recv (h : s.per.pstep = .recv) :
    peripheralAlone a s = .next { s with per := Per.received s.params.pOrder a.b s.per } := by unfold peripheralAlone; rw [h]; rfl

theorem peripheralAlone_disableIn (h : s.per.pstep = .disableIn) :
    peripheralAlone a s = .next { s with per := Per.disabledIn s.per } := by unfold peripheralAlone; rw [h]; rfl

theorem peripheralAlone_sample (h : s.per.pstep = .sample) :
    peripheralAlone a s = .next { s with per := Per.sampled a.v s.per } := by unfold peripheralAlone; rw [h]; rfl

theorem peripheralAlone_send (h : s.per.pstep = .send) :
    peripheralAlone a s = .next { s with per := Per.sent s.per } := by unfold peripheralAlone; rw [h]; rfl

theorem peripheralAlone_reset (h : s.per.pstep = .reset) :
    peripheralAlone a s = .next { s with per := Per.wasReset s.per } := by unfold peripheralAlone; rw [h]; rfl

theorem peripheralAlone_enableOut (h : s.per.pstep = .enableOut) :
    peripheralAlone a s = .next { s with per := Per.enabledOut s.per } := by unfold peripheralAlone; rw [h]; rfl

theorem peripheralAlone_enableIn (h : s.per.pstep = .enableIn) :
    peripheralAlone a s = .next { s with per := Per.enabledIn s.per } := by unfold peripheralAlone; rw [h]; rfl

theorem peripheralAlone_sleep (h : s.per.pstep = .sleep) :
    peripheralAlone a s = .next { s with per := Per.slept s.per } := by unfold peripheralAlone; rw [h]; rfl

theorem peripheralAlone_validate (h : s.per.pstep = .validate) :
    peripheralAlone a s = exec (decodeRequestWord s.per.pReq) s := by
  unfold peripheralAlone; rw [h]; rfl

/-- One micro-step more in front of a run. -/
theorem peripheralAloneRun_succ {k : Nat} {r : State × List Op} (h : peripheralAlone a s = .next t)
    (hr : peripheralAloneRun a k t = some r) :
    peripheralAloneRun a (k + 1) s = some (r.1, (s.per.op s.params.pOrder).toList ++ r.2) := by
  simp only [peripheralAloneRun, h, hr, Option.map_some]

end

end Sys2Proof.Machine
end

