-- ==== Sys2Proof/Laws/Moves.lean ====
section
/-! SUPPORT. Everything a step can do, as a list of cases with their guards: a move of the controller (`CtrlMove`), of
the peripheral (`PerMove`) or of the wire (`WireMove`), and, for the whole machine, whose move it was (`Move`). A proof
about every step is a case analysis of these. -/

namespace Sys2Proof.Machine

/-- The moves of the controller block, from `s`. -/
inductive CtrlMove (s : State) : State → Prop
  | build (h : s.ctrl.cstep = .build) : CtrlMove s { s with ctrl := s.ctrl.build }
  | select (h : s.ctrl.cstep = .select) :
      CtrlMove s { s with ctrl := s.ctrl.selected, link := s.link.select true }
  | sendIssue (h : s.ctrl.cstep = .send) (hx : s.link.xfer = .idle) :
      CtrlMove s { s with ctrl := s.ctrl.begin, link := s.link.issueSend (s.ctrl.txBytes s.params.cOrder) }
  | sendDone (b : Bytes4) (h : s.ctrl.cstep = .send) (hx : s.link.xfer = .send b 4) :
      CtrlMove s { s with ctrl := s.ctrl.sent, link := s.link.finish }
  | settle (h : s.ctrl.cstep = .settle) : CtrlMove s { s with ctrl := s.ctrl.settled }
  | recvIssue (h : s.ctrl.cstep = .recv) (hx : s.link.xfer = .idle) :
      CtrlMove s { s with ctrl := s.ctrl.begin, link := s.link.issueRecv }
  | recvDone (b : Bytes4) (rest : List Byte) (h : s.ctrl.cstep = .recv)
      (hx : s.link.xfer = .recv (b.toList ++ rest)) :
      CtrlMove s { s with ctrl := s.ctrl.received s.params.cOrder b, link := s.link.finish }
  | deselect (h : s.ctrl.cstep = .deselect) :
      CtrlMove s { s with ctrl := s.ctrl.deselected, link := s.link.select false }
  | frameError (h : s.ctrl.cstep = .validate) (hf : headerOf s.ctrl.cRxp ≠ 0xC819#16) :
      CtrlMove s { s with
        ctrl := (s.ctrl.begin.countFailure s.params.retryW (.eFrame (headerOf s.ctrl.cRxp))).goto .post }
  | accepted (h : s.ctrl.cstep = .validate) (hf : headerOf s.ctrl.cRxp = 0xC819#16)
      (he : expected s.ctrl.phase (payloadOf s.ctrl.cRxp)) :
      CtrlMove s { s with ctrl := (s.ctrl.begin.accept (payloadOf s.ctrl.cRxp)).goto .post }
  | mismatch (h : s.ctrl.cstep = .validate) (hf : headerOf s.ctrl.cRxp = 0xC819#16)
      (he : ¬expected s.ctrl.phase (payloadOf s.ctrl.cRxp)) :
      CtrlMove s { s with
        ctrl := (s.ctrl.begin.countFailure s.params.retryW (.eSemantic (payloadOf s.ctrl.cRxp))).goto .post }
  | recover (h : s.ctrl.cstep = .post) (hs : 5 < s.ctrl.cRetry) :
      CtrlMove s { s with ctrl := s.ctrl.begin.recover.goto .reset }
  | post (h : s.ctrl.cstep = .post) (hs : ¬5 < s.ctrl.cRetry) :
      CtrlMove s { s with ctrl := s.ctrl.begin.goto .sleep }
  | reset (h : s.ctrl.cstep = .reset) : CtrlMove s { s with ctrl := s.ctrl.wasReset }
  | sleep (h : s.ctrl.cstep = .sleep) : CtrlMove s { s with ctrl := s.ctrl.slept }
  | held (h : s.ctrl.cstep = .send ∨ s.ctrl.cstep = .recv) (hx : s.link.xfer ≠ .idle) : CtrlMove s s

/-- The moves of the peripheral block, from `s`. -/
inductive PerMove (s : State) : State → Prop
  | initIn (h : s.per.pstep = .initIn) :
      PerMove s { s with per := s.per.initedIn, link := s.link.enableInbound }
  | initOut (h : s.per.pstep = .initOut) :
      PerMove s { s with per := s.per.initedOut, link := s.link.enableOutbound }
  | checkOut (h : s.per.pstep = .checkOut) :
      PerMove s { s with per := s.per.tookOutCount s.link.outFifo.length }
  | checkIn (h : s.per.pstep = .checkIn) :
      PerMove s { s with per := s.per.tookInCount s.link.inFifo.length }
  | recv (b : Bytes4) (rest : List Byte) (h : s.per.pstep = .recv) (hi : s.link.inFifo = b.toList ++ rest) :
      PerMove s { s with per := s.per.received s.params.pOrder b, link := { s.link with inFifo := rest } }
  | disableIn (h : s.per.pstep = .disableIn) :
      PerMove s { s with per := s.per.disabledIn, link := s.link.disableInbound }
  | noiseSpent (h : s.per.pstep = .validate) (hf : headerOf s.per.pReq ≠ 0xC819#16)
      (hs : 25 < satInc s.params.retryW s.per.pRetry) :
      PerMove s { s with
        per := { s.per.begin with
          pRetry := if s.params.perClearOnReset then 0 else satInc s.params.retryW s.per.pRetry
          pstep := .reset
          out := (s.per.begin.out.raise 0#16 (.eFrame (headerOf s.per.pReq))).raise 0#16 .eBudget } }
  | noise (h : s.per.pstep = .validate) (hf : headerOf s.per.pReq ≠ 0xC819#16)
      (hs : ¬25 < satInc s.params.retryW s.per.pRetry) :
      PerMove s { s with
        per := { s.per.begin with
          pRetry := satInc s.params.retryW s.per.pRetry
          pstep := .enableIn
          out := s.per.begin.out.raise 0#16 (.eFrame (headerOf s.per.pReq)) } }
  | constant (v : Half) (h : s.per.pstep = .validate) (hf : headerOf s.per.pReq = 0xC819#16)
      (hv : payloadOf s.per.pReq = 0x0001#16 ∧ v = Config.idConst ∨
        payloadOf s.per.pReq = 0x0002#16 ∧ v = Config.unitConst) :
      PerMove s { s with per := (s.per.begin.acceptFrame.reply v).goto .send }
  | measurement (h : s.per.pstep = .validate) (hf : headerOf s.per.pReq = 0xC819#16)
      (hp : payloadOf s.per.pReq = 0x0003#16) :
      PerMove s { s with per := s.per.begin.acceptFrame.goto .sample }
  | unrecognized (h : s.per.pstep = .validate) (hf : headerOf s.per.pReq = 0xC819#16)
      (hp : payloadOf s.per.pReq ≠ 0x0001#16 ∧ payloadOf s.per.pReq ≠ 0x0002#16 ∧
        payloadOf s.per.pReq ≠ 0x0003#16) :
      PerMove s { s with
        per := (s.per.begin.acceptFrame.raise (.eUnknownCmd (payloadOf s.per.pReq))).goto .enableIn }
  | sample (h : s.per.pstep = .sample) :
      PerMove s { s with per := s.per.sampled s.inputs.sample, inputs := s.inputs.dropSample }
  | send (h : s.per.pstep = .send) (ho : s.link.outEn = true)
      (hr : s.link.outFifo.length + 4 ≤ s.params.outDepth) :
      PerMove s { s with per := s.per.sent, link := s.link.queue (s.per.txBytes s.params.pOrder) }
  | reset (h : s.per.pstep = .reset) :
      PerMove s { s with per := s.per.wasReset, link := s.link.resetPeripheral }
  | enableOut (h : s.per.pstep = .enableOut) :
      PerMove s { s with per := s.per.enabledOut, link := s.link.enableOutbound }
  | enableIn (h : s.per.pstep = .enableIn) :
      PerMove s { s with per := s.per.enabledIn, link := s.link.enableInbound }
  | sleep (h : s.per.pstep = .sleep) : PerMove s { s with per := s.per.slept }

/-- The link after a beat, but for the transfer (R265). -/
def Link.afterBeat (depth : Nat) (d : Byte) (x : Xfer) (l : Link) : Link :=
  { l with
    outFifo := if l.outEn then l.outFifo.tail else l.outFifo
    inFifo := if l.inEn = true ∧ l.inFifo.length < depth then l.inFifo ++ [d] else l.inFifo
    overrun := l.overrun || (l.inEn && decide (depth ≤ l.inFifo.length))
    xfer := x }

/-- A beat appends its byte to an inbound buffer with room, or leaves the buffer as it is. -/
theorem Link.afterBeat_inFifo (depth : Nat) (d : Byte) (x : Xfer) (l : Link) :
    (l.inFifo.length < depth ∧ (l.afterBeat depth d x).inFifo = l.inFifo ++ [d]) ∨
      (l.afterBeat depth d x).inFifo = l.inFifo := by
  by_cases h : l.inEn = true ∧ l.inFifo.length < depth
  · exact .inl ⟨h.2, if_pos h⟩
  · exact .inr (if_neg h)

/-- A beat takes the head off the outbound buffer, or leaves the buffer as it is. -/
theorem Link.afterBeat_outFifo (depth : Nat) (d : Byte) (x : Xfer) (l : Link) :
    (l.afterBeat depth d x).outFifo = l.outFifo.tail ∨ (l.afterBeat depth d x).outFifo = l.outFifo := by
  cases h : l.outEn
  · exact .inr (by simp [Link.afterBeat, h])
  · exact .inl (by simp [Link.afterBeat, h])

/-- The moves of the wire, from `s`; `n` is what the beat leaves of the inputs. -/
inductive WireMove (s : State) : State → Prop
  | sending (b : Bytes4) (i : Nat) (d : Byte) (n : Inputs) (hw : s.link.selW = true)
      (hx : s.link.xfer = .send b i) (hd : b.toList[i]? = some d) (hi : i < 4)
      (hn : n.tick = s.inputs.tick ∧ n.sched = s.inputs.sched ∧ n.samples = s.inputs.samples)
      (ha : s.inputs.drawsAllowed s.params = true → n.drawsAllowed s.params = true) :
      WireMove s { s with link := s.link.afterBeat s.params.inDepth d (.send b (i + 1)), inputs := n }
  | receiving (acc : List Byte) (u d : Byte) (n : Inputs) (hw : s.link.selW = true)
      (hx : s.link.xfer = .recv acc) (hl : acc.length < 4)
      (hd : d = (s.inputs.beginBeat acc.isEmpty).fill s.params.fillOk)
      (hu : u =
        if s.link.outEn then s.link.outFifo.headD ((s.inputs.beginBeat acc.isEmpty).underflow s.params.underflowOk)
        else (s.inputs.beginBeat acc.isEmpty).underflow s.params.underflowOk)
      (hn : n.tick = s.inputs.tick ∧ n.sched = s.inputs.sched ∧ n.samples = s.inputs.samples)
      (hf : n.fillsDrawn = (s.inputs.fillsDrawn.starting acc.isEmpty).took d)
      (ha : s.inputs.drawsAllowed s.params = true → n.drawsAllowed s.params = true) :
      WireMove s { s with link := s.link.afterBeat s.params.inDepth d (.recv (acc ++ [u])), inputs := n }
  | held (hb : s.link.beatKind = none) : WireMove s s

/-- The moves of the whole machine, from `s`: whose turn it was, and what it did. -/
inductive Move (s : State) : State → Prop
  | controller {t : State} (ht : s.inputs.turn = .controller) (hr : s.ctrl.rstN = true) (m : CtrlMove s.advance t) :
      Move s t
  | controllerHeld (ht : s.inputs.turn = .controller) (hr : s.ctrl.rstN = false) :
      Move s { s.advance with ctrl := s.ctrl.heldInReset }
  | peripheral {t : State} (ht : s.inputs.turn = .peripheral) (hr : s.per.rstN = true) (m : PerMove s.advance t) :
      Move s t
  | peripheralHeld (ht : s.inputs.turn = .peripheral) (hr : s.per.rstN = false) :
      Move s { s.advance with per := s.per.heldInReset }
  | wire {t : State} (ht : s.inputs.turn = .wire) (m : WireMove s.advance t) : Move s t
  | platform {c p : Bool} (ht : s.inputs.turn = .platform c p) :
      Move s { s.advance with ctrl := s.ctrl.setPin c, per := s.per.setPin p }

theorem controllerStep_move {s t : State} (h : controllerStep s = .next t) : CtrlMove s t := by
  cases hc : s.ctrl.cstep with
  | build =>
    rw [controllerStep_build hc] at h
    cases h
    exact .build hc
  | select =>
    rw [controllerStep_select hc] at h
    cases h
    exact .select hc
  | send =>
    rw [controllerStep_send hc] at h
    rcases controllerSend_cases s with ⟨hx, e⟩ | ⟨⟨b, hx⟩, e⟩ | ⟨hx, e⟩ <;> rw [e] at h <;> cases h
    · exact .sendIssue hc hx
    · exact .sendDone b hc hx
    · refine .held (.inl hc) ?_
      rcases hx with ⟨b, i, hx, -⟩ | ⟨acc, hx⟩ <;> simp [hx]
  | settle =>
    rw [controllerStep_settle hc] at h
    cases h
    exact .settle hc
  | recv =>
    rw [controllerStep_recv hc] at h
    rcases controllerRecv_cases s with ⟨hx, e⟩ | ⟨b, rest, hx, e⟩ | ⟨hx, e⟩ <;> rw [e] at h <;> cases h
    · exact .recvIssue hc hx
    · exact .recvDone b rest hc hx
    · refine .held (.inr hc) ?_
      rcases hx with ⟨b, i, hx⟩ | ⟨acc, hx, -⟩ <;> simp [hx]
  | deselect =>
    rw [controllerStep_deselect hc] at h
    cases h
    exact .deselect hc
  | validate =>
    rw [controllerStep_validate hc] at h
    rcases exec_response_cases s.ctrl.cRxp s with ⟨hf, e⟩ | ⟨hf, he, e⟩ | ⟨hf, he, e⟩ <;> rw [e] at h <;> cases h
    · exact .frameError hc hf
    · exact .accepted hc hf he
    · exact .mismatch hc hf he
  | post =>
    rw [controllerStep_post hc] at h
    by_cases hs : 5 < s.ctrl.cRetry
    · rw [Ctrl.posted_of_spent hs] at h
      cases h
      exact .recover hc hs
    · rw [Ctrl.posted_of_not_spent hs] at h
      cases h
      exact .post hc hs
  | reset =>
    rw [controllerStep_reset hc] at h
    cases h
    exact .reset hc
  | sleep =>
    rw [controllerStep_sleep hc] at h
    cases h
    exact .sleep hc

theorem peripheralStep_move {s t : State} (h : peripheralStep s = .next t) : PerMove s t := by
  cases hc : s.per.pstep with
  | initIn =>
    rw [peripheralStep_initIn hc] at h
    cases h
    exact .initIn hc
  | initOut =>
    rw [peripheralStep_initOut hc] at h
    cases h
    exact .initOut hc
  | checkOut =>
    rw [peripheralStep_checkOut hc] at h
    cases h
    exact .checkOut hc
  | checkIn =>
    rw [peripheralStep_checkIn hc] at h
    cases h
    exact .checkIn hc
  | recv =>
    rw [peripheralStep_recv hc] at h
    rcases peripheralRecv_cases s with ⟨b, rest, hi, e⟩ | ⟨-, e⟩ <;> rw [e] at h <;> cases h
    exact .recv b rest hc hi
  | disableIn =>
    rw [peripheralStep_disableIn hc] at h
    cases h
    exact .disableIn hc
  | validate =>
    rw [peripheralStep_validate hc] at h
    rcases exec_request_cases s.per.pReq s with
      ⟨hf, e⟩ | ⟨hf, ⟨hp, e⟩ | ⟨hp, e⟩ | ⟨hp, e⟩ | ⟨h1, h2, h3, e⟩⟩ <;> rw [e] at h <;> cases h
    · by_cases hs : 25 < satInc s.params.retryW s.per.pRetry
      · rw [Per.countNoise_of_spent (by simpa using hs)]
        exact .noiseSpent hc hf hs
      · rw [Per.countNoise_of_not_spent (by simpa using hs)]
        exact .noise hc hf hs
    · exact .constant _ hc hf (.inl ⟨hp, rfl⟩)
    · exact .constant _ hc hf (.inr ⟨hp, rfl⟩)
    · exact .measurement hc hf hp
    · exact .unrecognized hc hf ⟨h1, h2, h3⟩
  | sample =>
    rw [peripheralStep_sample hc] at h
    cases h
    exact .sample hc
  | send =>
    rw [peripheralStep_send hc] at h
    rcases peripheralSend_cases s with ⟨⟨ho, hr⟩, e⟩ | ⟨-, e⟩ <;> rw [e] at h <;> cases h
    exact .send hc ho hr
  | reset =>
    rw [peripheralStep_reset hc] at h
    cases h
    exact .reset hc
  | enableOut =>
    rw [peripheralStep_enableOut hc] at h
    cases h
    exact .enableOut hc
  | enableIn =>
    rw [peripheralStep_enableIn hc] at h
    cases h
    exact .enableIn hc
  | sleep =>
    rw [peripheralStep_sleep hc] at h
    cases h
    exact .sleep hc

theorem wireStep_move {s t : State} (h : wireStep s = .next t) : WireMove s t := by
  unfold wireStep at h
  split at h
  · rename_i k hk
    cases h
    obtain ⟨hw, ⟨b, i, d, rfl, hx, hd, hi⟩ | ⟨acc, rfl, hx, ha⟩⟩ := Link.beatKind_eq_some hk
    · rw [beatOn_sending]
      exact .sending b i d _ hw hx hd hi (beatOn_inputs _ _ _ _)
        fun h => beatOn_allowed _ _ _ (Inputs.beginBeat_allowed _ h)
    · rw [beatOn_receiving]
      exact .receiving acc _ _ _ hw hx ha rfl rfl (beatOn_inputs _ _ _ _) (beatOn_fillsDrawn _ _ _ _)
        fun h => beatOn_allowed _ _ _ (Inputs.beginBeat_allowed _ h)
  · cases h
    exact .held ‹_›

/-- Where a step answers a next state, it made one of the moves. -/
theorem step_move {s t : State} (h : step s = .next t) : s.link.overrun = false ∧ Move s t := by
  obtain ⟨ho, h⟩ := step_next h
  refine ⟨ho, ?_⟩
  cases ht : s.inputs.turn <;> rw [ht] at h <;> simp only [agentTurn, controllerTurn, peripheralTurn] at h
  · split at h
    · exact .controller ht (by assumption) (controllerStep_move h)
    · rename_i hr
      cases h
      exact .controllerHeld ht (Bool.eq_false_iff.2 hr)
  · split at h
    · exact .peripheral ht (by assumption) (peripheralStep_move h)
    · rename_i hr
      cases h
      exact .peripheralHeld ht (Bool.eq_false_iff.2 hr)
  · exact .wire ht (wireStep_move h)
  · cases h
    exact .platform ht

end Sys2Proof.Machine
end

