-- ==== Sys2Proof/Laws/PerInstr.lean ====
section
/-! SUPPORT. A family of statements made per instruction: the word a well-formed instruction encodes to is claimed by
the instruction's own row of the opcode table, before any other row of its context (R114). -/

namespace Sys2Proof.Laws.EncodesInRow

/-- The first row that matches the word of a well-formed instruction, in its context, is its own. -/
def Statement (i : Instr) : Prop :=
  i.wellFormed = true → (firstRow i.context (encode i)).map OpRow.mnemonic = some i.mnemonic

/-- A row of all ones matches one word: the well-framed one with its payload. -/
theorem full_row (p q : Half) :
    ((Packet.mk Config.sentinel p).word &&& 0xFFFFFFFF#32 == (Packet.mk Config.sentinel q).word) = (p == q) := by
  rw [and_full, Bool.eq_iff_iff, beq_iff_eq, beq_iff_eq, eq_framed_iff]
  simp [Config.sentinel]

/-- A row of the header alone matches a word exactly when it is well framed. -/
theorem header_row (p : Packet) :
    (p.word &&& 0xFFFF0000#32 == (Packet.mk Config.sentinel 0#16).word) = (p.header == Config.sentinel) := by
  rw [and_header, Bool.eq_iff_iff, beq_iff_eq, beq_iff_eq, eq_framed_iff]
  simp [Config.sentinel]

/-- A badly framed word matches no row that fixes the header. -/
theorem full_row_of_noise {h : Half} (hh : (h != Config.sentinel) = true) (p q : Half) :
    ((Packet.mk h p).word &&& 0xFFFFFFFF#32 == (Packet.mk Config.sentinel q).word) = false := by
  rw [and_full, beq_eq_false_iff_ne, ne_eq, eq_framed_iff, headerOf_word]
  exact fun e => (bne_iff_ne.1 hh) e.1

/-- The patterns of the table as packets. -/
theorem patterns :
    (0xC8190001#32 : Word) = (Packet.mk Config.sentinel Config.cmdGetIdentity).word ∧
    (0xC8190002#32 : Word) = (Packet.mk Config.sentinel Config.cmdGetUnit).word ∧
    (0xC8190003#32 : Word) = (Packet.mk Config.sentinel Config.cmdGetMeasurement).word ∧
    (0xC819000A#32 : Word) = (Packet.mk Config.sentinel Config.idConst).word ∧
    (0xC819000B#32 : Word) = (Packet.mk Config.sentinel Config.unitConst).word ∧
    (0xC8190000#32 : Word) = (Packet.mk Config.sentinel 0#16).word := by decide

/-- A row of another context is passed over. -/
theorem skip (ctx : Context) (w : Word) (r : OpRow) (rows : List OpRow) (h : (r.context == ctx) = false) :
    (r :: rows).find? (fun r => r.context == ctx && (w &&& r.mask) == r.pattern) =
      rows.find? (fun r => r.context == ctx && (w &&& r.mask) == r.pattern) :=
  List.find?_cons_of_neg (by simp [h])

/-- A row that does not match is passed over. -/
theorem miss (ctx : Context) (w : Word) (r : OpRow) (rows : List OpRow) (h : ((w &&& r.mask) == r.pattern) = false) :
    (r :: rows).find? (fun r => r.context == ctx && (w &&& r.mask) == r.pattern) =
      rows.find? (fun r => r.context == ctx && (w &&& r.mask) == r.pattern) :=
  List.find?_cons_of_neg (by simp [h])

/-- A row of the context that matches is the first. -/
theorem hit (ctx : Context) (w : Word) (r : OpRow) (rows : List OpRow) (h : (r.context == ctx) = true)
    (hm : ((w &&& r.mask) == r.pattern) = true) :
    (r :: rows).find? (fun r => r.context == ctx && (w &&& r.mask) == r.pattern) = some r :=
  List.find?_cons_of_pos (by simp [h, hm])

theorem getIdentity : Statement .getIdentity := fun _ => by decide

theorem getUnit : Statement .getUnit := fun _ => by decide

theorem getMeasurement : Statement .getMeasurement := fun _ => by decide

theorem unrecognized (c : Half) : Statement (.unrecognized c) := by
  intro hw
  obtain ⟨p1, p2, p3, -, -, p0⟩ := patterns
  simp only [Instr.wellFormed, Bool.and_eq_true, bne_iff_ne] at hw
  obtain ⟨⟨h1, h2⟩, h3⟩ := hw
  show (firstRow .request (Packet.mk Config.sentinel c).word).map _ = _
  rw [firstRow, opcodeTable, requestRows, p0, p1, p2, p3]
  repeat rw [List.cons_append]
  rw [miss, miss, miss, hit] <;> simp [full_row, header_row, h1, h2, h3, Instr.mnemonic]

theorem noise (h p : Half) : Statement (.noise h p) := by
  intro hw
  obtain ⟨p1, p2, p3, -, -, p0⟩ := patterns
  have hh : (h == Config.sentinel) = false := by simpa [Instr.wellFormed] using hw
  show (firstRow .request (Packet.mk h p).word).map _ = _
  rw [firstRow, opcodeTable, requestRows, p0, p1, p2, p3]
  repeat rw [List.cons_append]
  rw [miss, miss, miss, miss, hit] <;> simp [full_row_of_noise hw, header_row, hh, Instr.mnemonic]

theorem rspIdentity : Statement .rspIdentity := fun _ => by decide

/-- In a response context the five request rows are passed over. -/
theorem skip_requests (ph : Phase) (w : Word) :
    firstRow (.response ph) w =
      responseRows.find? (fun r => r.context == .response ph && (w &&& r.mask) == r.pattern) := by
  rw [firstRow, opcodeTable, requestRows]
  repeat rw [List.cons_append]
  rw [skip, skip, skip, skip, skip, List.nil_append] <;> cases ph <;> rfl

theorem rspMismatchDetect (p : Half) : Statement (.rspMismatchDetect p) := by
  intro hw
  obtain ⟨-, -, -, pa, -, p0⟩ := patterns
  have hp : (p == Config.idConst) = false := by simpa [Instr.wellFormed] using hw
  show (firstRow (.response .detectDevice) (Packet.mk Config.sentinel p).word).map _ = _
  rw [skip_requests, responseRows, p0, pa, miss, hit] <;> simp [full_row, header_row, hp, Instr.mnemonic]

theorem rspNoiseDetect (h p : Half) : Statement (.rspNoiseDetect h p) := by
  intro hw
  obtain ⟨-, -, -, pa, -, p0⟩ := patterns
  have hh : (h == Config.sentinel) = false := by simpa [Instr.wellFormed] using hw
  show (firstRow (.response .detectDevice) (Packet.mk h p).word).map _ = _
  rw [skip_requests, responseRows, p0, pa, miss, miss, hit] <;>
    simp [full_row_of_noise hw, header_row, hh, Instr.mnemonic]

theorem rspUnit : Statement .rspUnit := fun _ => by decide

theorem rspMismatchUnit (p : Half) : Statement (.rspMismatchUnit p) := by
  intro hw
  obtain ⟨-, -, -, -, pb, p0⟩ := patterns
  have hp : (p == Config.unitConst) = false := by simpa [Instr.wellFormed] using hw
  show (firstRow (.response .readUnit) (Packet.mk Config.sentinel p).word).map _ = _
  rw [skip_requests, responseRows, p0, pb, skip, skip, skip, miss, hit] <;>
    first
      | rfl
      | simp [full_row, header_row, hp]

theorem rspNoiseUnit (h p : Half) : Statement (.rspNoiseUnit h p) := by
  intro hw
  obtain ⟨-, -, -, -, pb, p0⟩ := patterns
  have hh : (h == Config.sentinel) = false := by simpa [Instr.wellFormed] using hw
  show (firstRow (.response .readUnit) (Packet.mk h p).word).map _ = _
  rw [skip_requests, responseRows, p0, pb, skip, skip, skip, miss, miss, hit] <;>
    first
      | rfl
      | simp [full_row_of_noise hw, header_row, hh]

theorem rspMeasurement (m : Half) : Statement (.rspMeasurement m) := by
  intro _
  obtain ⟨-, -, -, -, -, p0⟩ := patterns
  show (firstRow (.response .readMeasurement) (Packet.mk Config.sentinel m).word).map _ = _
  rw [skip_requests, responseRows, p0, skip, skip, skip, skip, skip, skip, hit] <;>
    first
      | rfl
      | simp [header_row]

theorem rspNoiseMeasurement (h p : Half) : Statement (.rspNoiseMeasurement h p) := by
  intro hw
  obtain ⟨-, -, -, -, -, p0⟩ := patterns
  have hh : (h == Config.sentinel) = false := by simpa [Instr.wellFormed] using hw
  show (firstRow (.response .readMeasurement) (Packet.mk h p).word).map _ = _
  rw [skip_requests, responseRows, p0, skip, skip, skip, skip, skip, skip, miss, hit] <;>
    first
      | rfl
      | simp [header_row, hh]

end Sys2Proof.Laws.EncodesInRow
end

