-- ==== Sys2Proof/Laws/Ports.lean ====
section
/-! SUPPORT. The layout of the data words of the transport port (R52): which byte stands where, and that reading the bytes
of a word back gives them. -/

namespace Sys2Proof.Machine

/-- The four bytes of a data word, at their places. -/
theorem wdata_bytes (b : Bytes4) :
    (wdata b).extractLsb' 0 8 = b.b0 ∧ (wdata b).extractLsb' 8 8 = b.b1 ∧
      (wdata b).extractLsb' 16 8 = b.b2 ∧ (wdata b).extractLsb' 24 8 = b.b3 := by
  have h : ∀ j, (wdata b).getLsbD j =
      BitVec.getLsbD (w := 8 + 8 + 8 + 8) (b.b3 ++ b.b2 ++ b.b1 ++ b.b0) j := fun _ => rfl
  refine ⟨?_, ?_, ?_, ?_⟩ <;> apply BitVec.eq_of_getLsbD_eq <;> intro i hi <;>
    simp only [BitVec.getLsbD_extractLsb', hi, decide_true, Bool.true_and, h, BitVec.getLsbD_append]
  · simp [hi]
  · simp [show ¬8 + i < 8 by omega, hi]
  · simp [show ¬16 + i < 8 by omega, show ¬16 + i - 8 < 8 by omega, show 16 + i - 8 - 8 = i by omega, hi]
  · simp [show ¬24 + i < 8 by omega, show ¬24 + i - 8 < 8 by omega, show ¬24 + i - 8 - 8 < 8 by omega,
      show 24 + i - 8 - 8 - 8 = i by omega]

/-- The bytes read from a data word are those put in. -/
@[simp] theorem bytesOfData_wdata (b : Bytes4) : bytesOfData (wdata b) = b := by
  obtain ⟨h0, h1, h2, h3⟩ := wdata_bytes b
  unfold bytesOfData
  rw [h0, h1, h2, h3]

/-- A count below 2^32 is what the port carries. -/
theorem rdataCount_toNat {count : Nat} (h : count < 2 ^ 32) : (rdataCount count).toNat = count := by
  unfold rdataCount
  rw [BitVec.toNat_ofNat, Nat.mod_eq_of_lt h]

end Sys2Proof.Machine
end

