-- ==== Sys2Proof/Laws/Turns.lean ====
section
/-! SUPPORT. What a step is at the turn of each agent, where no reset stands in its way (`Running`), and what one more
step of a tuned run (`tunedRun`) says. -/

namespace Sys2Proof.Machine

/-- Where no reset stands in an agent's way, no transfer has been abandoned. -/
theorem State.no_abandoned {a : Agent} {s : State} (h : s.free a = true) :
    s.ctrl.rstN = true ∨ s.link.xfer = .idle := by
  cases a <;> simp_all [State.free]

/-- Everything `Running` gives of a step: it is the agent's turn. -/
theorem step_of_turn {a : Agent} {s : State} (h : Running a s) : step s = agentTurn a s.advance := by
  obtain ⟨ho, ht, hf⟩ := h
  rw [step_of_running (State.no_abandoned hf) ho, ht]

theorem step_controller {s : State} (h : Running .controller s) : step s = controllerStep s.advance := by
  have hr : s.advance.ctrl.rstN = true := h.2.2
  rw [step_of_turn h]
  simp only [agentTurn, controllerTurn, hr, if_true]

theorem step_peripheral {s : State} (h : Running .peripheral s) : step s = peripheralStep s.advance := by
  have hr : s.advance.per.rstN = true := (Bool.and_eq_true_iff.1 h.2.2).1
  rw [step_of_turn h]
  simp only [agentTurn, peripheralTurn, hr, if_true]

theorem step_wire {s : State} (h : Running .wire s) : step s = wireStep s.advance := step_of_turn h

/-- A tuned run of no steps is over. -/
theorem tunedRun_zero {g : TunedStage} {s t : State} :
    tunedRun 0 g s = some t ↔ (g.after s = .rest ∧ s.tunedOver = true) ∧ s = t := by
  unfold tunedRun
  split <;> simp_all

/-- One step of a tuned run: the turn is admitted, the step goes on, and the rest is a tuned run. -/
theorem tunedRun_succ {k : Nat} {g : TunedStage} {s t : State} :
    tunedRun (k + 1) g s = some t ↔
      (g.after s).admits s s.inputs.turn = true ∧ ∃ u, step s = .next u ∧ tunedRun k (g.after s) u = some t := by
  rw [tunedRun]
  by_cases ha : (g.after s).admits s s.inputs.turn = true
  · rw [if_pos ha]
    cases hs : step s <;> simp [ha]
  · rw [if_neg ha]
    simp [ha]

end Sys2Proof.Machine
end

