-- ==== Sys2Proof/Tests/Slice0.lean ====
section
/-! SUPPORT. The model's own tests: an ill-formed term for each check of WellFormed; every constructor's word written out
bit by bit from the table; one step on small states, with results from the vectors of spec/95; the words the host
places; and a witness for each statement that has hypotheses. -/

namespace Sys2Proof.Tests

open Sys2Proof Sys2Proof.Machine

/-! ### Small states -/

/-- Reset, with the controller's turn at a micro-step, in a phase, with a count and a received word. -/
def ctrlAt (st : CStep) (ph : Phase) (retry : Nat) (w : Word) : State :=
  { State.reset with
    ctrl := { Ctrl.atReset with cstep := st, phase := ph, cRetry := retry, cRxp := w, sel := st.selected }
    link := { Link.atReset with selW := st.selected }
    inputs := { Inputs.atReset with sched := [.controller] } }

/-- Reset, with the peripheral's turn at a micro-step, with a count and a request word, and the enables of the step. -/
def perAt (st : PStep) (retry : Nat) (w : Word) : State :=
  { State.reset with
    per := { Per.atReset with pstep := st, pRetry := retry, pReq := w, pRsp := framedWord Config.idConst }
    link := { Link.atReset with inEn := st.listening, outEn := st.replying }
    inputs := { Inputs.atReset with sched := [.peripheral], samples := [0xF6D7#16] } }

/-- Reset, with the wire's turn and select active. -/
def wireAt (x : Xfer) (inF outF : List Byte) (inEn outEn : Bool) : State :=
  { State.reset with
    link := { Link.atReset with selW := true, xfer := x, inFifo := inF, outFifo := outF, inEn := inEn, outEn := outEn }
    inputs := { Inputs.atReset with sched := [.wire], fills := [0x77#8], underflows := [0xFF#8] } }

/-- A check of the next state; false where there is none. -/
def nextHas (p : State → Bool) (o : Host.Outcome State Fault Refusal) : Bool :=
  match o with
  | .next t => p t
  | _ => false

/-- A run that goes on has a next state. -/
theorem goes_on {o : Host.Outcome State Fault Refusal} (h : nextHas (fun _ => true) o = true) : ∃ t, o = .next t := by
  cases o with
  | next t => exact ⟨t, rfl⟩
  | fault r => cases h
  | refused r => cases h

/-! ### What WellFormed refuses (R111, R112, R114) -/

theorem test_illformed_unrecognized_identity : (Instr.unrecognized 0x0001#16).wellFormed = false := by decide
theorem test_illformed_unrecognized_unit : (Instr.unrecognized 0x0002#16).wellFormed = false := by decide
theorem test_illformed_unrecognized_measurement : (Instr.unrecognized 0x0003#16).wellFormed = false := by decide
theorem test_illformed_noise : (Instr.noise 0xC819#16 0x0001#16).wellFormed = false := by decide
theorem test_illformed_mismatch_detect : (Instr.rspMismatchDetect 0x000A#16).wellFormed = false := by decide
theorem test_illformed_mismatch_unit : (Instr.rspMismatchUnit 0x000B#16).wellFormed = false := by decide
theorem test_illformed_noise_detect : (Instr.rspNoiseDetect 0xC819#16 0#16).wellFormed = false := by decide
theorem test_illformed_noise_unit : (Instr.rspNoiseUnit 0xC819#16 0#16).wellFormed = false := by decide
theorem test_illformed_noise_measurement : (Instr.rspNoiseMeasurement 0xC819#16 0#16).wellFormed = false := by decide

/-! ### Every constructor's word, bit 31 on the left, from the table's encodings (R114) -/

theorem test_word_get_identity :
    decodeWord .request 0b11001000000110010000000000000001#32 = .getIdentity := by decide
theorem test_word_get_unit :
    decodeWord .request 0b11001000000110010000000000000010#32 = .getUnit := by decide
theorem test_word_get_measurement :
    decodeWord .request 0b11001000000110010000000000000011#32 = .getMeasurement := by decide
/-- The upper byte counts: `0x0101` is no command (R107). -/
theorem test_word_unrecognized :
    decodeWord .request 0b11001000000110010000000100000001#32 = .unrecognized 0x0101#16 := by decide
/-- One header bit wrong (vector F15). -/
theorem test_word_noise :
    decodeWord .request 0b11001000000110000000000000000001#32 = .noise 0xC818#16 0x0001#16 := by decide
theorem test_word_rsp_identity :
    decodeWord (.response .detectDevice) 0b11001000000110010000000000001010#32 = .rspIdentity := by decide
theorem test_word_rsp_mismatch_detect :
    decodeWord (.response .detectDevice) 0b11001000000110010000000000001011#32 = .rspMismatchDetect 0x000B#16 := by
  decide
theorem test_word_rsp_noise_detect :
    decodeWord (.response .detectDevice) 0b11111111111111110000000000001010#32 = .rspNoiseDetect 0xFFFF#16 0x000A#16 := by
  decide
theorem test_word_rsp_unit :
    decodeWord (.response .readUnit) 0b11001000000110010000000000001011#32 = .rspUnit := by decide
theorem test_word_rsp_mismatch_unit :
    decodeWord (.response .readUnit) 0b11001000000110010000000000001010#32 = .rspMismatchUnit 0x000A#16 := by decide
theorem test_word_rsp_noise_unit :
    decodeWord (.response .readUnit) 0b11001000000110000000000000001011#32 = .rspNoiseUnit 0xC818#16 0x000B#16 := by
  decide
/-- A measurement of 10 is bit-identical to the identity response (R110). -/
theorem test_word_rsp_measurement :
    decodeWord (.response .readMeasurement) 0b11001000000110010000000000001010#32 = .rspMeasurement 0x000A#16 := by
  decide
theorem test_word_rsp_noise_measurement :
    decodeWord (.response .readMeasurement) 0b00000000000000000000000000000000#32 = .rspNoiseMeasurement 0#16 0#16 := by
  decide

/-! ### Bytes (vectors F7, F12, F15, F16) and what the encoder writes -/

theorem test_bytes_negative : ser .little ⟨0xC819#16, 0xF6D7#16⟩ = ⟨0xD7#8, 0xF6#8, 0x19#8, 0xC8#8⟩ := by decide
theorem test_bytes_negative_big : ser .big ⟨0xC819#16, 0xF6D7#16⟩ = ⟨0xF6#8, 0xD7#8, 0xC8#8, 0x19#8⟩ := by decide
theorem test_bytes_fields_swapped :
    deser .little ⟨0x19#8, 0xC8#8, 0x01#8, 0x00#8⟩ = ⟨0x0001#16, 0xC819#16⟩ := by decide
theorem test_bytes_twice_the_sentinel :
    decode .request .little [0x19#8, 0xC8#8, 0x19#8, 0xC8#8] = .ok (.unrecognized 0xC819#16, []) := by decide
theorem test_bytes_one_bit_wrong :
    decode .request .little [0x01#8, 0x00#8, 0x18#8, 0xC8#8] = .ok (.noise 0xC818#16 0x0001#16, []) := by decide
/-- A fifth byte stays (R173). -/
theorem test_bytes_left_over :
    decode .request .little [0x5A#8, 0x01#8, 0x00#8, 0x19#8, 0xC8#8] = .ok (.noise 0x1900#16 0x015A#16, [0xC8#8]) := by
  decide
theorem test_encode_unit_reply : encode .rspUnit = 0xC819000B#32 := by decide
theorem test_encode_request_big :
    encodeBytes .big .getMeasurement = ⟨0x00#8, 0x03#8, 0xC8#8, 0x19#8⟩ := by decide
theorem test_request_sent : ser .little (packetOf (requestWord .readUnit)) = ⟨0x02#8, 0x00#8, 0x19#8, 0xC8#8⟩ := by
  decide

/-! ### The requests, one step at `P_VALIDATE` (vectors Q1 to Q16) -/

/-- Q1: the reply is `0A 00 19 C8`. -/
theorem test_get_identity :
    nextHas (fun t => t.per.pRsp == 0xC819000A#32 && t.per.pstep == .send) (step (perAt .validate 0 0xC8190001#32)) =
      true := by decide
/-- Q2: the count goes from 7 to 0. -/
theorem test_get_unit :
    nextHas (fun t => t.per.pRsp == 0xC819000B#32 && t.per.pRetry == 0) (step (perAt .validate 7 0xC8190002#32)) =
      true := by decide
theorem test_get_measurement :
    nextHas (fun t => t.per.pstep == .sample && t.inputs.samples == [0xF6D7#16])
      (step (perAt .validate 0 0xC8190003#32)) = true := by decide
/-- Q4: the sample -2345 goes into the reply unmodified. -/
theorem test_sample :
    nextHas (fun t => t.per.pRsp == 0xC819F6D7#32 && t.inputs.samples == []) (step (perAt .sample 0 0xC8190003#32)) =
      true := by decide
/-- Q5: count 3 to 0, an event, no reply. -/
theorem test_unrecognized :
    nextHas (fun t => t.per.pRetry == 0 && t.per.out.log == [.eUnknownCmd 0x0009#16] && t.per.pstep == .enableIn)
      (step (perAt .validate 3 0xC8190009#32)) = true := by decide
/-- Q8: 25 is not greater than 25. -/
theorem test_noise_below :
    nextHas (fun t => t.per.pRetry == 25 && t.per.pstep == .enableIn) (step (perAt .validate 24 0#32)) = true := by
  decide
/-- Q9: the 26th; `E_FRAME`, then `E_BUDGET`. -/
theorem test_noise_above :
    nextHas (fun t => t.per.pRetry == 0 && t.per.pstep == .reset && t.per.out.log == [.eFrame 0xFFFF#16, .eBudget])
      (step (perAt .validate 25 0xFFFFFFFF#32)) = true := by decide

/-! ### The responses, one step at `C_VALIDATE` (vectors K1 to K17) -/

/-- K2. -/
theorem test_rsp_identity :
    nextHas (fun t => t.ctrl.phase == .readUnit && t.ctrl.cRetry == 0)
      (step (ctrlAt .validate .detectDevice 4 0xC819000A#32)) = true := by decide
/-- K8. -/
theorem test_rsp_mismatch_detect :
    nextHas (fun t => t.ctrl.phase == .detectDevice && t.ctrl.cRetry == 1 && t.ctrl.out.log == [.eSemantic 0x010A#16])
      (step (ctrlAt .validate .detectDevice 0 0xC819010A#32)) = true := by decide
/-- K4: the right payload under a wrong header. -/
theorem test_rsp_noise_detect :
    nextHas (fun t => t.ctrl.cRetry == 3 && t.ctrl.out.log == [.eFrame 0xFFFF#16])
      (step (ctrlAt .validate .detectDevice 2 0xFFFF000A#32)) = true := by decide
/-- K9. -/
theorem test_rsp_unit :
    nextHas (fun t => t.ctrl.phase == .readMeasurement && t.ctrl.cRetry == 0)
      (step (ctrlAt .validate .readUnit 0 0xC819000B#32)) = true := by decide
/-- K10. -/
theorem test_rsp_mismatch_unit :
    nextHas (fun t => t.ctrl.phase == .readUnit && t.ctrl.cRetry == 1 && t.ctrl.out.log == [.eSemantic 0x000A#16])
      (step (ctrlAt .validate .readUnit 0 0xC819000A#32)) = true := by decide
/-- K12. -/
theorem test_rsp_noise_unit :
    nextHas (fun t => t.ctrl.phase == .readUnit && t.ctrl.cRetry == 4)
      (step (ctrlAt .validate .readUnit 3 0xC818000B#32)) = true := by decide
/-- K14: -2345 is (-23, 45). -/
theorem test_rsp_measurement :
    nextHas (fun t => t.ctrl.rdWhole.toInt == -23 && t.ctrl.rdFrac.toNat == 45 && t.ctrl.rdValid &&
        t.ctrl.out.log == [.reading (-23) 45] && t.ctrl.cRetry == 0)
      (step (ctrlAt .validate .readMeasurement 3 0xC819F6D7#32)) = true := by decide
/-- K17: -32768 is (-327, 68). -/
theorem test_rsp_measurement_least :
    nextHas (fun t => t.ctrl.out.log == [.reading (-327) 68])
      (step (ctrlAt .validate .readMeasurement 0 0xC8198000#32)) = true := by decide
/-- K15, the validation: no reading. -/
theorem test_rsp_noise_measurement :
    nextHas (fun t => t.ctrl.cRetry == 6 && t.ctrl.rdValid == false && t.ctrl.phase == .readMeasurement)
      (step (ctrlAt .validate .readMeasurement 5 0#32)) = true := by decide

/-! ### The other micro-steps and the link (vectors K5, K6, T1 to T11) -/

/-- K6: 5 is not greater than 5. -/
theorem test_post_below :
    nextHas (fun t => t.ctrl.cstep == .sleep && t.ctrl.cRetry == 5) (step (ctrlAt .post .readUnit 5 0#32)) = true := by
  decide
/-- K15: back to DetectDevice. -/
theorem test_post_above :
    nextHas (fun t => t.ctrl.cstep == .reset && t.ctrl.cRetry == 0 && t.ctrl.phase == .detectDevice)
      (step (ctrlAt .post .readMeasurement 6 0#32)) = true := by decide
/-- T3: the queued byte comes up, the fill byte goes down. -/
theorem test_beat_receiving :
    nextHas (fun t => t.link.xfer == .recv [0x0A#8] && t.link.outFifo == [0x00#8, 0x19#8] && t.link.inFifo == [0x77#8])
      (step (wireAt (.recv []) [] [0x0A#8, 0x00#8, 0x19#8] true true)) = true := by decide
/-- T2: a stale reply is clocked out by a send and discarded. -/
theorem test_beat_sending :
    nextHas (fun t => t.link.xfer == .send ⟨0x01#8, 0x00#8, 0x19#8, 0xC8#8⟩ 1 && t.link.outFifo == [0x00#8] &&
        t.link.inFifo == [0x00#8, 0x01#8])
      (step (wireAt (.send ⟨0x01#8, 0x00#8, 0x19#8, 0xC8#8⟩ 0) [0x00#8] [0x0A#8, 0x00#8] true true)) = true := by
  decide
/-- T5: nothing queued, an underflow draw comes up. -/
theorem test_beat_underflow :
    nextHas (fun t => t.link.xfer == .recv [0x0A#8, 0xFF#8]) (step (wireAt (.recv [0x0A#8]) [] [] false true)) = true := by
  decide
/-- T6: a full buffer sets the flag and stays. -/
theorem test_beat_overrun :
    nextHas (fun t => t.link.overrun && t.link.inFifo.length == 8)
      (step (wireAt (.send ⟨1#8, 2#8, 3#8, 4#8⟩ 1) (List.replicate 8 0x5A#8) [] true true)) = true := by decide
/-- T7: no beat after the fourth. -/
theorem test_beat_not_enabled :
    step (wireAt (.send ⟨1#8, 2#8, 3#8, 4#8⟩ 4) [] [] true true) =
      .next (wireAt (.send ⟨1#8, 2#8, 3#8, 4#8⟩ 4) [] [] true true).advance := rfl
/-- T8: the reset empties both buffers, turns outbound off and leaves inbound as it is. -/
theorem test_transport_reset :
    nextHas (fun t => t.link == { Link.atReset with selW := false })
      (step { perAt .reset 0 0#32 with
        link := { Link.atReset with inFifo := [0xC8#8, 0x00#8], outFifo := [0x0A#8], outEn := true } }) = true := by
  decide

/-! ### The words the host places -/

theorem test_table_word_request : decodeTableWord 32 0xC8190002 = some .getUnit := by decide
theorem test_table_word_response : decodeTableWord 32 0xC819000A = some .rspIdentity := by decide
theorem test_placed_request_runs :
    nextHas (fun t => t.per.pRsp == 0xC819000A#32) (step (State.reset.withFetchWord 32 0xC8190001)) = true := by decide
theorem test_placed_response_runs :
    nextHas (fun t => t.ctrl.phase == .readMeasurement) (step (State.reset.withFetchWord 32 0xC819000B)) = true := by
  decide

/-! ### A witness for each statement that has hypotheses, at the boundaries of its clauses -/

theorem witness_get_measurement_samples :
    Running .peripheral (perAt .sample 0 0#32) ∧ (perAt .sample 0 0#32).per.pstep = .sample ∧
      (perAt .sample 0 0#32).inputs.advance.sample = 0xF6D7#16 := by decide
theorem witness_get_measurement_elsewhere :
    (∃ t, step (perAt .checkIn 0 0#32) = .next t) ∧
      ¬((perAt .checkIn 0 0#32).inputs.turn = .peripheral ∧ (perAt .checkIn 0 0#32).per.pstep = .sample) :=
  ⟨goes_on (by decide), by decide⟩
/-- The values beside the three commands. -/
theorem witness_unrecognized :
    (0x0000#16 ≠ 0x0001#16 ∧ 0x0000#16 ≠ 0x0002#16 ∧ 0x0000#16 ≠ 0x0003#16) ∧
      (0x0004#16 ≠ 0x0001#16 ∧ 0x0004#16 ≠ 0x0002#16 ∧ 0x0004#16 ≠ 0x0003#16) := by decide
/-- A header one bit off, on each side of the threshold. -/
theorem witness_noise :
    0xC818#16 ≠ 0xC819#16 ∧ ¬25 < satInc 8 (perAt .validate 24 0#32).per.pRetry ∧
      25 < satInc 8 (perAt .validate 25 0#32).per.pRetry := by decide
theorem witness_well_framed :
    headerOf 0xC8190001#32 = 0xC819#16 ∧ headerOf 0xC8190003#32 = 0xC819#16 ∧ headerOf 0xC8190004#32 = 0xC819#16 := by
  decide
theorem witness_request_rows :
    ∀ i ∈ [Instr.getIdentity, .getUnit, .getMeasurement, .unrecognized 4#16, .noise 0#16 0#16], i.context = .request := by
  decide
theorem witness_detect_device :
    (ctrlAt .validate .detectDevice 0 0#32).ctrl.phase = .detectDevice ∧ 0x000B#16 ≠ 0x000A#16 := by decide
theorem witness_read_unit :
    (ctrlAt .validate .readUnit 0 0#32).ctrl.phase = .readUnit ∧ 0x000A#16 ≠ 0x000B#16 := by decide
theorem witness_read_measurement : (ctrlAt .validate .readMeasurement 0 0#32).ctrl.phase = .readMeasurement := by decide
theorem witness_badly_framed :
    0xC818#16 ≠ 0xC819#16 ∧
      ∀ ph : Phase, (ctrlAt .validate ph 0 0#32).ctrl.phase = ph := ⟨by decide, fun _ => rfl⟩
theorem witness_out_of_phase :
    Instr.rspIdentity.context = .response .detectDevice ∧
      (ctrlAt .validate .readUnit 0 0#32).ctrl.phase ≠ .detectDevice := by decide
theorem witness_response_in_phase :
    Instr.rspUnit.context = .response (ctrlAt .validate .readUnit 0 0#32).ctrl.phase ∧
      (∀ m, Instr.rspUnit ≠ .rspMeasurement m) := ⟨by decide, fun _ => nofun⟩
/-- Both clauses, and two words that differ in the payload alone. -/
theorem witness_header_first :
    headerOf 0xC818000A#32 ≠ 0xC819#16 ∧ headerOf 0xC819000A#32 = 0xC819#16 ∧
      headerOf 0xC818000A#32 = headerOf 0xC8180000#32 := by decide
theorem witness_validation_both :
    State.reset.params.Ok ∧ (ctrlAt .validate .detectDevice 0 0xC819000A#32).ctrl.hdrOk = true ∧
      (ctrlAt .validate .detectDevice 0 0xC819000A#32).ctrl.payOk = true ∧
      (ctrlAt .validate .detectDevice 0 0xC819000B#32).ctrl.payOk = false := by decide
theorem witness_encoded : (Instr.unrecognized 0xFFFF#16).wellFormed = true ∧ Instr.rspUnit.wellFormed = true := by decide
theorem witness_short : ([] : List Byte).length < 4 ∧ [1#8, 2#8, 3#8].length < 4 := by decide
theorem witness_byte_orders : ByteOrder.little ≠ .big := by decide
theorem witness_small_negative :
    ¬(-99 ≤ asSigned16 0xFF9C#16 ∧ asSigned16 0xFF9C#16 ≤ -1) ∧ ¬(-99 ≤ asSigned16 0#16 ∧ asSigned16 0#16 ≤ -1) ∧
      (-99 ≤ asSigned16 0xFF9D#16 ∧ asSigned16 0xFF9D#16 ≤ -1) ∧ (-99 ≤ asSigned16 0xFFFF#16 ∧ asSigned16 0xFFFF#16 ≤ -1) := by
  decide
theorem witness_saturation : 254 ≤ 2 ^ 8 - 1 ∧ 254 < 2 ^ 8 - 1 ∧ 255 = 2 ^ 8 - 1 := by decide

theorem witness_controller_steps :
    ∀ st ∈ [CStep.build, .select, .deselect, .settle, .reset, .sleep],
      Running .controller (ctrlAt st .readUnit 0 0#32) ∧ (ctrlAt st .readUnit 0 0#32).ctrl.cstep = st := by decide
/-- Both sides of the threshold. -/
theorem witness_post :
    Running .controller (ctrlAt .post .readUnit 5 0#32) ∧ (ctrlAt .post .readUnit 5 0#32).ctrl.cstep = .post ∧
      ¬5 < (ctrlAt .post .readUnit 5 0#32).ctrl.cRetry ∧ 5 < (ctrlAt .post .readUnit 6 0#32).ctrl.cRetry := by decide

/-- The controller about to send, with four bytes of room left of eight. -/
def sending : State :=
  { ctrlAt .send .detectDevice 0 0#32 with
    link := { Link.atReset with selW := true, inEn := true, inFifo := [0#8, 0#8, 0#8, 0#8] }
    inputs := { Inputs.atReset with sched := [.controller, .wire, .wire, .wire, .wire, .controller] } }

theorem witness_send :
    Running .controller sending ∧ sending.ctrl.cstep = .send ∧ sending.link.xfer = .idle ∧ sending.link.selW = true ∧
      sending.link.inEn = true ∧ sending.link.inFifo.length + 4 ≤ sending.params.inDepth ∧
      sending.inputs.sched = [.controller, .wire, .wire, .wire, .wire, .controller] ++ [] := by decide

/-- The controller about to receive a queued reply, with inbound buffering as given. -/
def receiving (inEn : Bool) : State :=
  { ctrlAt .recv .detectDevice 0 0#32 with
    link := { Link.atReset with
      selW := true, inEn := inEn, outEn := true, outFifo := [0x0A#8, 0x00#8, 0x19#8, 0xC8#8] }
    inputs := { Inputs.atReset with sched := [.controller, .wire, .wire, .wire, .wire, .controller] } }

theorem witness_receive :
    ∀ inEn : Bool, Running .controller (receiving inEn) ∧ (receiving inEn).ctrl.cstep = .recv ∧
      (receiving inEn).link.xfer = .idle ∧ (receiving inEn).link.selW = true ∧
      ReplyReady ⟨0x0A#8, 0x00#8, 0x19#8, 0xC8#8⟩ (receiving inEn) ∧
      ((receiving inEn).link.inEn = true →
        (receiving inEn).link.inFifo.length + 4 ≤ (receiving inEn).params.inDepth) ∧
      (receiving inEn).inputs.sched = [.controller, .wire, .wire, .wire, .wire, .controller] ++ [] ∧
      (receiving inEn).link.inEn = inEn := by decide
/-- The same with nothing to clock out: outbound buffering off, or its buffer empty. -/
def receivingNothing (outEn : Bool) (outF : List Byte) : State :=
  { receiving true with
    link := { Link.atReset with selW := true, inEn := true, outEn := outEn, outFifo := outF } }

theorem witness_receive_nothing :
    (Running .controller (receivingNothing true []) ∧ (receivingNothing true []).link.outFifo = [] ∧
      (receivingNothing true []).ctrl.cstep = .recv ∧ (receivingNothing true []).link.xfer = .idle ∧
      (receivingNothing true []).link.selW = true ∧
      ((receivingNothing true []).link.inEn = true →
        (receivingNothing true []).link.inFifo.length + 4 ≤ (receivingNothing true []).params.inDepth) ∧
      (receivingNothing true []).inputs.sched = [.controller, .wire, .wire, .wire, .wire, .controller] ++ []) ∧
    (Running .controller (receivingNothing false [0x0A#8]) ∧ (receivingNothing false [0x0A#8]).link.outEn = false) ∧
    noPacketIn .little [0#8, 0#8, 0#8, 0#8] = true := by decide
theorem witness_controller_cycle :
    (ctrlAt .build .readUnit 5 0#32).ctrl.rstN = true ∧ (ctrlAt .build .readUnit 5 0#32).ctrl.cstep = .build := by decide
/-- Six failing responses of both kinds: the identity in ReadUnit, and noise. -/
def failures : List Bytes4 :=
  List.replicate 3 ⟨0x0A#8, 0x00#8, 0x19#8, 0xC8#8⟩ ++ List.replicate 3 ⟨0#8, 0#8, 0#8, 0#8⟩

theorem witness_six_failures :
    5 ≤ 8 ∧ failures.length = 6 ∧ (∀ b ∈ failures, failsIn .little .readUnit b = true) ∧
      failsIn .little .readUnit ⟨0x0B#8, 0x00#8, 0x19#8, 0xC8#8⟩ = false := by decide

theorem witness_peripheral_steps :
    ∀ st ∈ [PStep.initIn, .initOut, .checkOut, .checkIn, .disableIn, .reset, .enableOut, .enableIn, .sleep],
      Running .peripheral (perAt st 0 0#32) ∧ (perAt st 0 0#32).per.pstep = st := by decide

/-- The peripheral at a step, with so many bytes inbound and outbound. -/
def withBuffers (st : PStep) (n m : Nat) : State :=
  { perAt st 0 0#32 with
    link := { Link.atReset with
      inEn := st.listening, outEn := st.replying, inFifo := List.replicate n 0#8, outFifo := List.replicate m 0#8 } }

/-- One byte left of a reply, and none (R172). -/
theorem witness_skips :
    Running .peripheral (withBuffers .checkOut 4 1) ∧ (withBuffers .checkOut 4 1).per.pstep = .checkOut ∧
      (withBuffers .checkOut 4 1).link.outFifo.length ≠ 0 ∧ (withBuffers .checkOut 4 0).link.outFifo.length = 0 := by decide
/-- Three bytes, and four (R173). -/
theorem witness_waits :
    Running .peripheral (withBuffers .checkIn 3 0) ∧ (withBuffers .checkIn 3 0).per.pstep = .checkIn ∧
      ¬4 ≤ (withBuffers .checkIn 3 0).link.inFifo.length ∧ 4 ≤ (withBuffers .checkIn 4 0).link.inFifo.length := by decide
theorem witness_takes :
    Running .peripheral (withBuffers .recv 5 0) ∧ (withBuffers .recv 5 0).per.pstep = .recv ∧
      (withBuffers .recv 5 0).link.inFifo = 0#8 :: 0#8 :: 0#8 :: 0#8 :: [0#8] := by decide
/-- The last reply that fits. -/
theorem witness_queues :
    Running .peripheral (withBuffers .send 0 4) ∧ (withBuffers .send 0 4).per.pstep = .send ∧
      (withBuffers .send 0 4).link.outEn = true ∧
      (withBuffers .send 0 4).link.outFifo.length + 4 ≤ (withBuffers .send 0 4).params.outDepth := by decide
theorem witness_peripheral_cycle :
    (perAt .checkOut 25 0#32).per.rstN = true ∧ (perAt .checkOut 25 0#32).per.pstep = .checkOut := by decide
/-- Answers that bring the peripheral four bytes. -/
def taking (b : Bytes4) : PerAnswers := ⟨0, 4, b, 0#16⟩

theorem witness_twenty_six :
    5 ≤ 8 ∧ (List.replicate 26 (taking ⟨0#8, 0#8, 0#8, 0#8⟩)).length = 26 ∧
      (∀ a ∈ List.replicate 26 (taking ⟨0#8, 0#8, 0#8, 0#8⟩),
        a.takesPacket = true ∧ (deser .little a.b).header ≠ 0xC819#16) ∧
      (taking ⟨9#8, 0#8, 0x19#8, 0xC8#8⟩).takesPacket = true ∧
      (deser .little (taking ⟨9#8, 0#8, 0x19#8, 0xC8#8⟩).b).header = 0xC819#16 := by
  refine ⟨by decide, rfl, fun a h => ?_, by decide, by decide⟩
  rw [List.eq_of_mem_replicate h]
  decide

/-- The last beat of a send at a full buffer; the last of a receive with buffering off. -/
theorem witness_beat :
    Running .wire (wireAt (.send ⟨1#8, 2#8, 3#8, 4#8⟩ 3) (List.replicate 8 0#8) [] true true) ∧
      (wireAt (.send ⟨1#8, 2#8, 3#8, 4#8⟩ 3) (List.replicate 8 0#8) [] true true).link.selW = true ∧
      (⟨1#8, 2#8, 3#8, 4#8⟩ : Bytes4).toList[3]? = some 4#8 ∧
      Running .wire (wireAt (.recv [0#8, 0#8, 0#8]) [] [] false false) ∧ [0#8, 0#8, 0#8].length < 4 := by decide
theorem witness_overrun :
    ({ State.reset with link := { Link.atReset with overrun := true } } : State).link.overrun = true := by decide
/-- A controller that waits for beats, a wire with nothing to move; a peripheral out of reset is held at no other
step. -/
theorem witness_held :
    (Running .controller { sending with link := { sending.link with xfer := .send ⟨1#8, 2#8, 3#8, 4#8⟩ 3 } } ∧
      enabled .controller { sending with link := { sending.link with xfer := .send ⟨1#8, 2#8, 3#8, 4#8⟩ 3 } } = false) ∧
    (Running .wire (wireAt .idle [] [] true true) ∧ enabled .wire (wireAt .idle [] [] true true) = false) := by decide
theorem witness_pins :
    (∃ s : State, s.ctrl.rstN = true ∧ s.link.overrun = false ∧ s.inputs.turn = .platform false true) ∧
      (∃ s : State, s.ctrl.rstN = false ∧ s.link.xfer = .idle ∧ s.link.overrun = false ∧
        s.inputs.turn = .platform true false) :=
  ⟨⟨{ State.reset with inputs := { Inputs.atReset with sched := [.platform false true] } }, by decide⟩,
    ⟨{ State.reset with
      ctrl := { Ctrl.atReset with rstN := false }
      inputs := { Inputs.atReset with sched := [.platform true false] } }, by decide⟩⟩
theorem witness_held_in_reset :
    (∃ s : State, s.ctrl.rstN = false ∧ s.link.xfer = .idle ∧ s.link.overrun = false ∧ s.inputs.turn = .controller) ∧
      (∃ s : State, s.ctrl.rstN = true ∧ s.per.rstN = false ∧ s.link.overrun = false ∧ s.inputs.turn = .peripheral) ∧
      (∃ s : State, s.ctrl.rstN = false ∧ s.link.xfer = .idle ∧ s.per.rstN = false ∧ s.link.overrun = false ∧
        s.inputs.turn = .peripheral) :=
  ⟨⟨{ ctrlAt .send .readUnit 3 0#32 with ctrl := { Ctrl.atReset with rstN := false, cstep := .send } }, by decide⟩,
    ⟨{ perAt .send 3 0#32 with per := { Per.atReset with rstN := false, pstep := .send } }, by decide⟩,
    ⟨{ perAt .send 3 0#32 with
      ctrl := { Ctrl.atReset with rstN := false }, per := { Per.atReset with rstN := false, pstep := .send } },
      by decide⟩⟩
/-- Each agent runs while another block is in reset (R339). -/
theorem witness_running_beside_reset :
    Running .controller { ctrlAt .select .readUnit 0 0#32 with per := { Per.atReset with rstN := false } } ∧
    Running .peripheral { perAt .checkIn 0 0#32 with ctrl := { Ctrl.atReset with rstN := false } } ∧
    Running .wire { wireAt (.recv []) [] [] true true with per := { Per.atReset with rstN := false } } ∧
    Running .wire { wireAt .idle [] [] true true with ctrl := { Ctrl.atReset with rstN := false } } := by decide
/-- A receive that is complete; a count of three and of none; a whole packet; a sample (R52, R53). -/
theorem witness_input_ports :
    (∃ s : State, Running .controller s ∧ s.ctrl.cstep = .recv ∧
      s.link.xfer = .recv (⟨0x0A#8, 0x00#8, 0x19#8, 0xC8#8⟩ : Bytes4).toList) ∧
    (Running .peripheral (withBuffers .checkOut 0 3) ∧ (withBuffers .checkOut 0 3).link.outFifo.length < 2 ^ 32) ∧
    (Running .peripheral (withBuffers .checkIn 0 0) ∧ (withBuffers .checkIn 0 0).link.inFifo.length < 2 ^ 32) ∧
    (Running .peripheral (withBuffers .recv 5 0) ∧
      (withBuffers .recv 5 0).link.inFifo = (⟨0#8, 0#8, 0#8, 0#8⟩ : Bytes4).toList ++ [0#8]) ∧
    (Running .peripheral (perAt .sample 0 0#32) ∧ (perAt .sample 0 0#32).per.pstep = .sample) :=
  ⟨⟨{ receiving true with link := { Link.atReset with selW := true, xfer := .recv [0x0A#8, 0x00#8, 0x19#8, 0xC8#8] } },
    by decide⟩, by decide, by decide, by decide, by decide⟩
/-- The layout of R52: the reply `0A 00 19 C8` on `t_rdata`. -/
theorem test_rdata :
    ({ receiving true with
      link := { Link.atReset with selW := true, xfer := .recv [0x0A#8, 0x00#8, 0x19#8, 0xC8#8] } } : State).ctrlInPorts.tRdata =
      some 0xC819000A#32 := by decide
/-- A block's ports in reset, and out of it. -/
theorem witness_ports : Ctrl.atReset.rstN = true ∧ Per.atReset.rstN = true ∧
    ({ Ctrl.atReset with rstN := false } : Ctrl).rstN = false ∧ ({ Per.atReset with rstN := false } : Per).rstN = false := by
  decide
/-- Fixed underflow bytes: `FF` comes up whatever the environment offers (R266). -/
theorem test_fixed_underflow :
    nextHas (fun t => t.link.xfer == .recv [0xFF#8] && t.inputs.underflowsDrawn.now == [0xFF#8])
      (step { wireAt (.recv []) [] [] false true with
        params := { Params.default with underflowOk := .exactly ⟨0xFF#8, 0xFF#8, 0xFF#8, 0xFF#8⟩ }
        inputs := { Inputs.atReset with sched := [.wire], underflows := [0x12#8] } }) = true := by decide
/-- The premise of R266 looks at every four consecutive bytes: here at bytes 1 to 4. -/
theorem test_no_packet_in : noPacketIn .little [0x5A#8, 0x01#8, 0x00#8, 0x19#8, 0xC8#8] = false := by decide
theorem witness_step_request :
    Running .peripheral (perAt .validate 0 0xC8190002#32) ∧ (perAt .validate 0 0xC8190002#32).per.pstep = .validate ∧
      decodeWord .request (perAt .validate 0 0xC8190002#32).per.pReq = .getUnit := by decide
theorem witness_step_response :
    Running .controller (ctrlAt .validate .readMeasurement 0 0xC8190929#32) ∧
      (ctrlAt .validate .readMeasurement 0 0xC8190929#32).ctrl.cstep = .validate ∧
      decodeWord (.response (ctrlAt .validate .readMeasurement 0 0xC8190929#32).ctrl.phase)
        (ctrlAt .validate .readMeasurement 0 0xC8190929#32).ctrl.cRxp = .rspMeasurement 0x0929#16 := by decide
theorem witness_phase_moves :
    (ctrlAt .post .readMeasurement 6 0#32).ctrl.rstN = true ∧
      ∃ t, step (ctrlAt .post .readMeasurement 6 0#32) = .next t ∧ t.ctrl.rstN = true := ⟨by decide, _, rfl, by decide⟩
/-- Z4: a reset in ReadMeasurement with count 3, and the release: nothing survives. -/
theorem test_hardware_reset :
    nextHas (fun s => nextHas (fun t => t.ctrl.phase == .detectDevice && t.ctrl.cRetry == 0 && t.ctrl.cstep == .build &&
        t.ctrl.rstN) (step s))
      (step { ctrlAt .sleep .readMeasurement 3 0#32 with
        inputs := { Inputs.atReset with sched := [.platform false true, .platform true true] } }) = true := by decide
/-- A turn of each agent, and of the platform. -/
theorem witness_each_agent :
    (∃ t, step (ctrlAt .select .readUnit 0 0#32) = .next t) ∧ (ctrlAt .select .readUnit 0 0#32).inputs.turn = .controller ∧
    (∃ t, step (perAt .reset 0 0#32) = .next t) ∧ (perAt .reset 0 0#32).inputs.turn = .peripheral ∧
    (∃ t, step (wireAt (.recv []) [] [1#8] true true) = .next t) ∧
      (wireAt (.recv []) [] [1#8] true true).inputs.turn = .wire ∧
    (∃ s : State, s.inputs.turn = .platform true false ∧ ∃ t, step s = .next t) :=
  ⟨goes_on (by decide), by decide, goes_on (by decide), by decide, goes_on (by decide), by decide,
    { State.reset with inputs := { Inputs.atReset with sched := [.platform true false] } }, by decide,
    goes_on (by decide)⟩
/-- Both a step that goes on and one that is refused. -/
theorem witness_learns_nothing :
    Running .peripheral (perAt .checkIn 0 0#32) ∧ (ctrlAt .send .readUnit 5 0#32).ctrl.rstN = true ∧
      (perAt .checkIn 0 0#32).link.xfer = .idle ∧
      (∃ t, step (perAt .checkIn 0 0#32) = .next t) ∧
      Running .peripheral (perAt .recv 0 0#32) ∧ ∃ r, step (perAt .recv 0 0#32) = .refused r :=
  ⟨by decide, by decide, by decide, goes_on (by decide), by decide, .receiveShort, rfl⟩

/-- A state of the invariant at the peripheral's turn. -/
def invariantState : State := { State.reset with inputs := { Inputs.atReset with sched := [.peripheral] } }

theorem witness_invariant_step :
    Inv invariantState ∧ ∃ t, step invariantState = .next t ∧ t.ctrl.rstN = true ∧ t.per.rstN = true :=
  ⟨by decide, _, rfl, by decide, by decide⟩
theorem witness_retry_step :
    RetryInv (ctrlAt .post .readUnit 6 0#32) ∧ ∃ t, step (ctrlAt .post .readUnit 6 0#32) = .next t :=
  ⟨by decide, goes_on (by decide)⟩
theorem witness_not_refused : Inv invariantState ∧ invariantState.link.overrun = false := by decide

/-- A quiescent point in ReadMeasurement with the inputs of one tuned exchange. -/
def quiescentState : State :=
  { State.reset with
    ctrl := { Ctrl.atReset with phase := .readMeasurement }
    per := { Per.atReset with pstep := .checkOut }
    link := { Link.atReset with inEn := true, outEn := true }
    inputs := { Inputs.atReset with
      sched := tunedSchedule .readMeasurement, samples := [0x0929#16], fills := [0#8, 0#8, 0#8, 0#8] } }

theorem witness_tuned_exchange :
    quiescentState.ctrl.rstN = true ∧ quiescentState.per.rstN = true ∧ quiescentState.link.overrun = false ∧
      quiescentState.params.Ok ∧ quiescentState.params.cOrder = quiescentState.params.pOrder ∧ Quiescent quiescentState ∧
      quiescentState.ctrl.cstep = .build ∧ quiescentState.per.pstep = .checkOut ∧
      quiescentState.inputs.sched = tunedSchedule quiescentState.ctrl.phase ++ [] ∧
      quiescentState.inputs.samples = 0x0929#16 :: [] ∧
      quiescentState.inputs.fills = 0#8 :: 0#8 :: 0#8 :: 0#8 :: [] ∧
      quiescentState.params.fillOk.allows [0#8, 0#8, 0#8, 0#8] = true ∧
      NotFramed quiescentState.params.pOrder ⟨0#8, 0#8, 0#8, 0#8⟩ := by decide

/-- A run that the tuned schedule admits, with the end it comes to, and its fill bytes. -/
theorem witness_tuned_run :
    ((tunedRun ((tunedSchedule .readMeasurement).length - 1) .send quiescentState).map fun t =>
      noPacketIn .little t.inputs.fillsDrawn.now) = some true := by decide +kernel

end Sys2Proof.Tests
end

/-! PROOFS of the scope statements (spec/00_scope.md): the frame of the requests, the frame of the responses, and the
saturating retry count. -/

namespace Sys2Proof.Machine

/-! ### The saturating count -/

theorem satInc_of_lt {w count : Nat} (h : count < 2 ^ w - 1) : satInc w count = count + 1 := if_pos h

theorem satInc_of_not_lt {w count : Nat} (h : ¬count < 2 ^ w - 1) : satInc w count = count := if_neg h

theorem le_satInc (w count : Nat) : count ≤ satInc w count := by
  unfold satInc
  split <;> omega

theorem satInc_le_max {w count : Nat} (h : count ≤ 2 ^ w - 1) : satInc w count ≤ 2 ^ w - 1 := by
  unfold satInc
  split <;> omega

/-- Settles O28: the two branches of `satInc`, split at the greatest value of the width. -/
theorem retryCountSaturates : Obligations.RetryCountSaturates := by
  intro w count hle
  exact ⟨satInc_le_max hle, le_satInc w count, satInc_of_lt, fun h => satInc_of_not_lt (Nat.not_lt.2 h.ge)⟩

/-! ### What a request can change -/

/-- Noise changes the count, the sequencer and the event output, whether the budget is spent or not (R177). -/
theorem Per.countNoise_frame (w : Nat) (clear : Bool) (h : Half) (p : Per) :
    ∃ retry next out, p.countNoise w clear h = { p with pRetry := retry, pstep := next, out := out } := by
  by_cases hs : 25 < satInc w p.pRetry
  · exact ⟨_, _, _, Per.countNoise_of_spent hs⟩
  · exact ⟨_, _, _, Per.countNoise_of_not_spent hs⟩

/-- A request row, well formed or not, answers a next state that differs from `s` in four fields of the peripheral at
most; the reply register differs for the two constant replies only (R176 to R181). -/
theorem exec_frame_of_request {i : Instr} (s : State) (hi : i.context = .request) :
    ∃ retry next rsp out,
      exec i s = .next { s with per := { s.per with pRetry := retry, pstep := next, pRsp := rsp, out := out } } ∧
        (i ≠ .getIdentity → i ≠ .getUnit → rsp = s.per.pRsp) := by
  match i, hi with
  | .getIdentity, _ => exact ⟨_, _, _, _, rfl, fun hne _ => absurd rfl hne⟩
  | .getUnit, _ => exact ⟨_, _, _, _, rfl, fun _ hne => absurd rfl hne⟩
  | .getMeasurement, _ => exact ⟨_, _, _, _, rfl, fun _ _ => rfl⟩
  | .unrecognized _, _ => exact ⟨_, _, _, _, rfl, fun _ _ => rfl⟩
  | .noise h p, _ =>
    have hexec : exec (.noise h p) s = s.perStep (·.countNoise s.params.retryW s.params.perClearOnReset h) := rfl
    obtain ⟨_, _, _, hnoise⟩ := s.per.begin.countNoise_frame s.params.retryW s.params.perClearOnReset h
    rw [State.perStep_eq, hnoise] at hexec
    exact ⟨_, _, _, _, hexec, fun _ _ => rfl⟩

/-- Settles O7: each of the five rows answers a state of the form `exec_frame_of_request` gives. -/
theorem requestsChangeOnlyThePeripheralsControl : Obligations.RequestsChangeOnlyThePeripheralsControl := by
  intro i s hi
  obtain ⟨_, _, _, _, hexec, hrsp⟩ := exec_frame_of_request s hi
  exact ⟨_, hexec, rfl, rfl, rfl, rfl, rfl, rfl, rfl, rfl, rfl, hrsp⟩

/-! ### What a response can change -/

/-- A response row in its phase, well formed or not: a counted failure, a success, or the emitted reading, each followed
by the way to `C_POST` (R136 to R139). -/
theorem exec_cases_of_response {i : Instr} {s : State} (hi : i.context = .response s.ctrl.phase) :
    (∃ e, exec i s = .next { s with ctrl := (s.ctrl.begin.countFailure s.params.retryW e).goto .post }) ∨
    (∃ ph, exec i s = .next { s with ctrl := (s.ctrl.begin.succeed ph).goto .post }) ∨
    (∃ m, i = .rspMeasurement m ∧
      exec i s = .next { s with ctrl := ((s.ctrl.begin.succeed .readMeasurement).emitReading m).goto .post }) := by
  have hphase {ph : Phase} (h : Context.response ph = .response s.ctrl.phase) : s.ctrl.phase = ph :=
    (Context.response.inj h).symm
  match i, hi with
  | .rspIdentity, hi => exact .inr (.inl ⟨_, State.judge_of_phase (hphase hi)⟩)
  | .rspUnit, hi => exact .inr (.inl ⟨_, State.judge_of_phase (hphase hi)⟩)
  | .rspMeasurement m, hi => exact .inr (.inr ⟨m, rfl, State.judge_of_phase (hphase hi)⟩)
  | .rspMismatchDetect _, hi => exact .inl ⟨_, State.judge_of_phase (hphase hi)⟩
  | .rspMismatchUnit _, hi => exact .inl ⟨_, State.judge_of_phase (hphase hi)⟩
  | .rspNoiseDetect _ _, hi => exact .inl ⟨_, State.judge_of_phase (hphase hi)⟩
  | .rspNoiseUnit _ _, hi => exact .inl ⟨_, State.judge_of_phase (hphase hi)⟩
  | .rspNoiseMeasurement _ _, hi => exact .inl ⟨_, State.judge_of_phase (hphase hi)⟩

/-- Settles O14: failures and successes keep the reading registers; the emitted reading is the measurement's alone. -/
theorem responsesChangeOnlyTheControllersControl : Obligations.ResponsesChangeOnlyTheControllersControl := by
  intro i s hi
  rcases exec_cases_of_response hi with ⟨_, hexec⟩ | ⟨_, hexec⟩ | ⟨_, rfl, hexec⟩
  · exact ⟨_, hexec, by simp⟩
  · exact ⟨_, hexec, by simp⟩
  · exact ⟨_, hexec, by simp⟩

end Sys2Proof.Machine

/-! PROOFS of the state statements (spec/10_state.md): what each agent's move touches, the phase, the named conditions,
held agents, the bounds of the retry counts, the invariant of the machine, and the ports. -/

namespace Sys2Proof.Machine

/-! ### What each agent's move leaves as it is -/

/-- What the controller's turn leaves as it is (R30, R313). -/
structure CtrlFrame (s t : State) : Prop where
  params : t.params = s.params
  per : t.per = s.per
  inputs : t.inputs = s.inputs
  rstN : t.ctrl.rstN = s.ctrl.rstN
  inFifo : t.link.inFifo = s.link.inFifo
  outFifo : t.link.outFifo = s.link.outFifo
  inEn : t.link.inEn = s.link.inEn
  outEn : t.link.outEn = s.link.outEn

/-- What the peripheral's turn leaves as it is: it may take a sample, but draws no byte of the wire. -/
structure PerFrame (s t : State) : Prop where
  params : t.params = s.params
  ctrl : t.ctrl = s.ctrl
  rstN : t.per.rstN = s.per.rstN
  selW : t.link.selW = s.link.selW
  xfer : t.link.xfer = s.link.xfer
  fillsDrawn : t.inputs.fillsDrawn = s.inputs.fillsDrawn
  underflowsDrawn : t.inputs.underflowsDrawn = s.inputs.underflowsDrawn

/-- What the wire's turn leaves as it is. -/
structure WireFrame (s t : State) : Prop where
  params : t.params = s.params
  ctrl : t.ctrl = s.ctrl
  per : t.per = s.per
  selW : t.link.selW = s.link.selW
  inEn : t.link.inEn = s.link.inEn
  outEn : t.link.outEn = s.link.outEn

section
variable {s t : State}

theorem CtrlMove.frame (m : CtrlMove s t) : CtrlFrame s t := by
  cases m with
  | accepted => exact ⟨rfl, rfl, rfl, Ctrl.accept_rstN _ _, rfl, rfl, rfl, rfl⟩
  | _ => exact ⟨rfl, rfl, rfl, rfl, rfl, rfl, rfl, rfl⟩

theorem PerMove.frame (m : PerMove s t) : PerFrame s t := by
  cases m <;> exact ⟨rfl, rfl, rfl, rfl, rfl, rfl, rfl⟩

theorem WireMove.frame (m : WireMove s t) : WireFrame s t := by
  cases m <;> exact ⟨rfl, rfl, rfl, rfl, rfl, rfl⟩

end

@[simp] theorem Ctrl.setPin_rstN (level : Bool) (c : Ctrl) : (c.setPin level).rstN = level := by
  cases level <;> rfl

@[simp] theorem Per.setPin_rstN (level : Bool) (p : Per) : (p.setPin level).rstN = level := by
  cases level <;> rfl

/-- A pin that stays high leaves the controller block as it is. -/
theorem Ctrl.setPin_of_high {level : Bool} {c : Ctrl} (hl : level = true) (hc : c.rstN = true) :
    c.setPin level = c := by
  subst hl
  simp [Ctrl.setPin, ← hc]

/-- A pin that stays high leaves the peripheral block as it is. -/
theorem Per.setPin_of_high {level : Bool} {p : Per} (hl : level = true) (hp : p.rstN = true) :
    p.setPin level = p := by
  subst hl
  simp [Per.setPin, ← hp]

/-- Settles O53: the move of each agent has the frame of that agent. -/
theorem eachAgentTouchesOnlyItsOwn : Obligations.EachAgentTouchesOnlyItsOwn := by
  intro s t hstep
  cases (step_move hstep).2 with
  | controller ht _ m =>
    have f := m.frame
    exact ⟨f.params, by simp [ht, f.per, f.rstN, f.inFifo, f.outFifo, f.inEn, f.outEn]⟩
  | controllerHeld ht hr => exact ⟨rfl, by simp [ht, hr, Ctrl.heldInReset]⟩
  | peripheral ht _ m =>
    have f := m.frame
    exact ⟨f.params, by simp [ht, f.ctrl, f.rstN, f.selW, f.xfer]⟩
  | peripheralHeld ht hr => exact ⟨rfl, by simp [ht, hr, Per.heldInReset]⟩
  | wire ht m =>
    have f := m.frame
    exact ⟨f.params, by simp [ht, f.ctrl, f.per]⟩
  | platform ht =>
    refine ⟨rfl, by simp [ht], by simp [ht], by simp [ht], fun c p h => ?_⟩
    obtain ⟨rfl, rfl⟩ := Agent.platform.inj (ht.symm.trans h)
    exact ⟨rfl, Ctrl.setPin_rstN _ _, Per.setPin_rstN _ _, Ctrl.setPin_of_high, Per.setPin_of_high⟩

/-! ### The phase -/

section
variable {s t : State}

/-- The strict forward chain is one of the ways the phase may change. -/
theorem phaseMoves_of_nextPhase (h : t.ctrl.phase = nextPhase s.ctrl.phase) : PhaseMoves s t := by
  cases hp : s.ctrl.phase <;> rw [hp] at h
  · exact .inr (.inl ⟨hp, h⟩)
  · exact .inr (.inr (.inl ⟨hp, h⟩))
  · exact .inl (h.trans hp.symm)

theorem CtrlMove.phaseMoves (m : CtrlMove s t) : PhaseMoves s t := by
  cases m with
  | accepted => exact phaseMoves_of_nextPhase (Ctrl.accept_phase _ _)
  | recover hc hs => exact .inr (.inr (.inr ⟨rfl, hc, hs⟩))
  | _ => exact .inl rfl

end

/-- Settles O52: only the controller's own moves change the phase, as its block is out of reset throughout. -/
theorem phaseMovesForwardOrBackToTheFirst : Obligations.PhaseMovesForwardOrBackToTheFirst := by
  intro s t hs ht hstep
  cases (step_move hstep).2 with
  | controller _ _ m => exact m.phaseMoves
  | controllerHeld _ hr => exact absurd (hs.symm.trans hr) (by decide)
  | peripheral _ _ m => exact .inl (congrArg Ctrl.phase m.frame.ctrl)
  | peripheralHeld => exact .inl rfl
  | wire _ m => exact .inl (congrArg Ctrl.phase m.frame.ctrl)
  | platform =>
    rw [Ctrl.setPin_rstN] at ht
    exact .inl (congrArg Ctrl.phase (Ctrl.setPin_of_high ht hs))

/-! ### The named conditions decide a validation -/

theorem Ctrl.hdrOk_iff (c : Ctrl) : c.hdrOk = true ↔ headerOf c.cRxp = 0xC819#16 := framed_iff _

theorem Ctrl.payOk_iff (c : Ctrl) : c.payOk = true ↔ expected c.phase (payloadOf c.cRxp) := by
  cases hp : c.phase <;> simp [Ctrl.payOk, expected, hp, Config.idConst, Config.unitConst]

theorem Per.hdrOk_iff (p : Per) : p.hdrOk = true ↔ headerOf p.pReq = 0xC819#16 := framed_iff _

theorem Per.known_iff (p : Per) :
    p.known = true ↔ payloadOf p.pReq = 0x0001#16 ∨ payloadOf p.pReq = 0x0002#16 ∨ payloadOf p.pReq = 0x0003#16 := by
  simp [Per.known, Per.cmd, Config.cmdGetIdentity, Config.cmdGetUnit, Config.cmdGetMeasurement, or_assoc]

/-- Noise leads to the recovery or to the end of the packet, never to a reply (R177). -/
theorem Per.countNoise_pstep (w : Nat) (clear : Bool) (h : Half) (p : Per) :
    (p.countNoise w clear h).pstep = .reset ∨ (p.countNoise w clear h).pstep = .enableIn := by
  by_cases hs : 25 < satInc w p.pRetry
  · exact .inl (by rw [Per.countNoise_of_spent hs])
  · exact .inr (by rw [Per.countNoise_of_not_spent hs])

/-- Settles O8: of the five outcomes of a request (`exec_request_cases`), the three recognized commands lead to a reply;
noise fails the first condition and an unrecognized command the second. -/
theorem onlyRecognizedRequestsAreAnswered : Obligations.OnlyRecognizedRequestsAreAnswered := by
  intro s
  rw [Per.hdrOk_iff, Per.known_iff]
  rcases exec_request_cases s.per.pReq s with
    ⟨hf, e⟩ | ⟨hf, ⟨hp, e⟩ | ⟨hp, e⟩ | ⟨hp, e⟩ | ⟨h1, h2, h3, e⟩⟩
  · refine ⟨_, e, ?_⟩
    rcases Per.countNoise_pstep s.params.retryW s.params.perClearOnReset (headerOf s.per.pReq) s.per.begin
      with h | h <;> simp [h, hf]
  · exact ⟨_, e, by simp [hf, hp]⟩
  · exact ⟨_, e, by simp [hf, hp]⟩
  · exact ⟨_, e, by simp [hf, hp]⟩
  · exact ⟨_, e, by simp [h1, h2, h3]⟩

/-- A counter of at least one bit never stands at zero after a failure: it counts one more, or stays at its greatest
value. -/
theorem satInc_ne_zero {w : Nat} (hw : 0 < w) (count : Nat) : satInc w count ≠ 0 := by
  have h : 2 ^ 1 ≤ 2 ^ w := Nat.pow_le_pow_right (by decide) hw
  by_cases hlt : count < 2 ^ w - 1
  · simp [satInc_of_lt hlt]
  · rw [satInc_of_not_lt hlt]
    omega

/-- Settles O16: the success puts the count to zero, and either failure leaves one that is not (`satInc_ne_zero`, the
width being at least 5 by D8). -/
theorem validationSucceedsWhenBothConditionsHold : Obligations.ValidationSucceedsWhenBothConditionsHold := by
  intro s hok
  have hw : 0 < s.params.retryW := Nat.lt_of_lt_of_le (by decide) hok.1
  rw [Ctrl.hdrOk_iff, Ctrl.payOk_iff]
  rcases exec_response_cases s.ctrl.cRxp s with ⟨hf, e⟩ | ⟨hf, he, e⟩ | ⟨hf, he, e⟩
  · exact ⟨_, e, by simp [hf, satInc_ne_zero hw]⟩
  · exact ⟨_, e, by simp [hf, he]⟩
  · exact ⟨_, e, by simp [he, satInc_ne_zero hw]⟩

/-! ### Held agents -/

section
variable {s : State}

/-- The controller is out of reset at its turn. -/
theorem ctrl_rstN_of_running (h : Running .controller s) : s.ctrl.rstN = true := by
  obtain ⟨-, -, hfree⟩ := h
  exact hfree

/-- The peripheral is out of reset at its turn. -/
theorem per_rstN_of_running (h : Running .peripheral s) : s.per.rstN = true := by
  obtain ⟨-, -, hfree⟩ := h
  exact (Bool.and_eq_true_iff.1 hfree).1

/-- A controller without an enabled step waits in a transfer that has not done its beats (R54, R263, R264). -/
theorem controllerStep_of_disabled (hr : s.ctrl.rstN = true) (h : enabled .controller s = false) :
    controllerStep s = .next s := by
  simp only [enabled, hr, Bool.true_and] at h
  cases hc : s.ctrl.cstep with
  | send =>
    rw [controllerStep_send hc]
    rcases controllerSend_cases s with ⟨hx, -⟩ | ⟨⟨b, hx⟩, -⟩ | ⟨-, e⟩
    · simp [hc, hx] at h
    · simp [hc, hx, Config.pktBytes] at h
    · exact e
  | recv =>
    rw [controllerStep_recv hc]
    rcases controllerRecv_cases s with ⟨hx, -⟩ | ⟨b, rest, hx, -⟩ | ⟨-, e⟩
    · simp [hc, hx] at h
    · simp [hc, hx, Config.pktBytes] at h
    · exact e
  | build | select | settle | deselect | validate | post | reset | sleep => simp [hc] at h

/-- The peripheral has an enabled step but at `P_RECV` and `P_SEND`. -/
theorem enabled_peripheral (hr : s.per.rstN = true) (h1 : s.per.pstep ≠ .recv) (h2 : s.per.pstep ≠ .send) :
    enabled .peripheral s = true := by
  cases hp : s.per.pstep <;> simp_all [enabled]

/-- A wire without a beat does nothing. -/
theorem wireStep_of_disabled (h : enabled .wire s = false) : wireStep s = .next s := by
  have hb : s.link.beatKind = none := by simpa [enabled] using h
  simp [wireStep, hb]

end

/-- Settles O47: the controller waits in a transfer, the wire has no beat, and the other two always have a step. -/
theorem heldAgentsChangeNothing : Obligations.HeldAgentsChangeNothing := by
  intro a s hrun hdis hper
  cases a with
  | controller =>
    rw [step_controller hrun]
    exact controllerStep_of_disabled (ctrl_rstN_of_running (s := s) hrun) hdis
  | peripheral =>
    obtain ⟨h1, h2⟩ := hper rfl
    rw [enabled_peripheral (per_rstN_of_running hrun) h1 h2] at hdis
    cases hdis
  | wire =>
    rw [step_wire hrun]
    exact wireStep_of_disabled hdis
  | platform => cases hdis

/-! ### The bounds of the retry counts -/

/-- The bound of `c_retry` at a step of the controller (R57). -/
def ctrlRetryOk (st : CStep) (count : Nat) : Prop := count ≤ 6 ∧ (st ≠ .post → count ≤ 5)

/-- The bound of `p_retry` (R57): the threshold, or, where the count is not cleared, the width. -/
def perRetryOk (p : Params) (count : Nat) : Prop :=
  if p.perClearOnReset then count ≤ 25 else count ≤ 2 ^ p.retryW - 1

theorem retryInv_iff (s : State) :
    RetryInv s ↔ ctrlRetryOk s.ctrl.cstep s.ctrl.cRetry ∧ perRetryOk s.params s.per.pRetry := Iff.rfl

theorem ctrlRetryOk_of_le {st : CStep} {count : Nat} (h : count ≤ 5) : ctrlRetryOk st count :=
  ⟨h.trans (by decide), fun _ => h⟩

theorem perRetryOk_zero (p : Params) : perRetryOk p 0 := by
  unfold perRetryOk
  split <;> exact Nat.zero_le _

/-- A count that noise brings, and that does not spend the budget, is within the bound. -/
theorem perRetryOk_satInc {p : Params} {count : Nat} (h : perRetryOk p count)
    (hs : ¬25 < satInc p.retryW count) : perRetryOk p (satInc p.retryW count) := by
  unfold perRetryOk at *
  by_cases hclear : p.perClearOnReset = true
  · rw [if_pos hclear]
    exact Nat.not_lt.1 hs
  · rw [if_neg hclear] at h ⊢
    exact satInc_le_max h

/-- What is left of the count when the budget is spent is within the bound, cleared or not (R177). -/
theorem perRetryOk_spent {p : Params} {count : Nat} (h : perRetryOk p count) :
    perRetryOk p (if p.perClearOnReset then 0 else satInc p.retryW count) := by
  by_cases hclear : p.perClearOnReset = true
  · rw [if_pos hclear]
    exact perRetryOk_zero p
  · unfold perRetryOk at *
    rw [if_neg hclear] at h
    rw [if_neg hclear, if_neg hclear]
    exact satInc_le_max h

/-- One failure after a count of at most 5 gives at most 6, and that at `C_POST` (R57). -/
theorem ctrlRetryOk_failure {count : Nat} (w : Nat) (h : count ≤ 5) : ctrlRetryOk .post (satInc w count) :=
  ⟨(satInc_le w count).trans (Nat.succ_le_succ h), fun hne => absurd rfl hne⟩

section
variable {s t : State}

theorem CtrlMove.retryOk (m : CtrlMove s t) (h : ctrlRetryOk s.ctrl.cstep s.ctrl.cRetry) :
    ctrlRetryOk t.ctrl.cstep t.ctrl.cRetry := by
  have le_five (hc : s.ctrl.cstep ≠ .post) : s.ctrl.cRetry ≤ 5 := h.2 hc
  cases m with
  | frameError hc | mismatch hc => exact ctrlRetryOk_failure _ (le_five (by simp [hc]))
  | accepted => exact ctrlRetryOk_of_le (by simp)
  | recover => exact ctrlRetryOk_of_le (Nat.zero_le _)
  | post _ hs => exact ctrlRetryOk_of_le (Nat.not_lt.1 hs)
  | held => exact h
  | build hc | select hc | sendIssue hc | sendDone _ hc | settle hc | recvIssue hc | recvDone _ _ hc | deselect hc
  | reset hc | sleep hc => exact ctrlRetryOk_of_le (le_five (by simp [hc]))

theorem PerMove.retryOk (m : PerMove s t) (h : perRetryOk s.params s.per.pRetry) :
    perRetryOk t.params t.per.pRetry := by
  cases m with
  | noiseSpent => exact perRetryOk_spent h
  | noise _ _ hs => exact perRetryOk_satInc h hs
  | constant | measurement | unrecognized => exact perRetryOk_zero _
  | _ => exact h

theorem Ctrl.setPin_retryOk (level : Bool) {c : Ctrl} (h : ctrlRetryOk c.cstep c.cRetry) :
    ctrlRetryOk (c.setPin level).cstep (c.setPin level).cRetry := by
  cases level
  · exact ctrlRetryOk_of_le (Nat.zero_le _)
  · exact h

theorem Per.setPin_retryOk (level : Bool) {q : Params} {p : Per} (h : perRetryOk q p.pRetry) :
    perRetryOk q (p.setPin level).pRetry := by
  cases level
  · exact perRetryOk_zero q
  · exact h

/-- Every move keeps the bounds of both counts. -/
theorem Move.retryInv (m : Move s t) (h : RetryInv s) : RetryInv t := by
  obtain ⟨hc, hp⟩ := (retryInv_iff s).1 h
  rw [retryInv_iff]
  cases m with
  | controller _ _ m =>
    rw [m.frame.params, m.frame.per]
    exact ⟨m.retryOk hc, hp⟩
  | controllerHeld => exact ⟨ctrlRetryOk_of_le (Nat.zero_le _), hp⟩
  | peripheral _ _ m =>
    refine ⟨?_, m.retryOk hp⟩
    rw [m.frame.ctrl]
    exact hc
  | peripheralHeld => exact ⟨hc, perRetryOk_zero _⟩
  | wire _ m =>
    rw [m.frame.params, m.frame.ctrl, m.frame.per]
    exact ⟨hc, hp⟩
  | platform => exact ⟨Ctrl.setPin_retryOk _ hc, Per.setPin_retryOk _ hp⟩

end

/-- Settles O58: a step is a move, and every move keeps the bounds. -/
theorem everyStepKeepsTheRetryBounds : Obligations.EveryStepKeepsTheRetryBounds :=
  fun _ _ h hstep => (step_move hstep).2.retryInv h

/-! ### The controller's side of an exchange -/

section
variable {s t : State}

theorem xferFits_of_idle (h : s.link.xfer = .idle) : xferFits s = true := by
  simp [xferFits, h]

/-- A transfer is in flight at `C_SEND` and `C_RECV` only. -/
theorem idle_of_xferFits (h : xferFits s = true) (hs : s.ctrl.cstep ≠ .send) (hr : s.ctrl.cstep ≠ .recv) :
    s.link.xfer = .idle := by
  cases hx : s.link.xfer <;> simp_all [xferFits]

/-- An exchange is about the controller block, the parameters, select on the wire and the transfer alone. -/
theorem ExchangeInv.congr (h : ExchangeInv s) (hc : t.ctrl = s.ctrl) (hp : t.params = s.params)
    (hw : t.link.selW = s.link.selW) (hx : t.link.xfer = s.link.xfer) : ExchangeInv t := by
  simpa only [ExchangeInv, xferFits, hc, hp, hw, hx] using h

theorem CtrlMove.xferFits (m : CtrlMove s t) (h : xferFits s = true) : xferFits t = true := by
  cases m with
  | sendIssue hc => simp [Machine.xferFits, hc, Ctrl.txBytes]
  | recvIssue hc => simp [Machine.xferFits, hc]
  | sendDone | recvDone => exact xferFits_of_idle rfl
  | held => exact h
  | build hc | select hc | settle hc | deselect hc | frameError hc | accepted hc | mismatch hc | recover hc | post hc
  | reset hc | sleep hc =>
    have hidle : s.link.xfer = .idle := idle_of_xferFits h (by simp [hc]) (by simp [hc])
    exact xferFits_of_idle hidle

/-- Select rises at `C_SELECT` and falls at `C_DESELECT`, on the register and on the wire (R37, R132, R140). -/
theorem CtrlMove.selected (m : CtrlMove s t) (hs : s.ctrl.sel = s.ctrl.cstep.selected)
    (hw : s.link.selW = s.ctrl.cstep.selected) :
    t.ctrl.sel = t.ctrl.cstep.selected ∧ t.link.selW = t.ctrl.cstep.selected := by
  cases m with
  | select | deselect => exact ⟨rfl, rfl⟩
  | held => exact ⟨hs, hw⟩
  | build hc | sendIssue hc | sendDone _ hc | settle hc | recvIssue hc | recvDone _ _ hc | frameError hc | accepted hc
  | mismatch hc | recover hc | post hc | reset hc | sleep hc => simp [hs, hw, hc, CStep.selected]

/-- The request is built at `C_BUILD` and kept, with the phase, until it is sent (R131, R144). -/
theorem CtrlMove.request (m : CtrlMove s t)
    (h : s.ctrl.cstep = .select ∨ s.ctrl.cstep = .send → s.ctrl.cTxp = requestWord s.ctrl.phase)
    (ht : t.ctrl.cstep = .select ∨ t.ctrl.cstep = .send) : t.ctrl.cTxp = requestWord t.ctrl.phase := by
  cases m with
  | build => rfl
  | select hc => exact h (.inl hc)
  | sendIssue hc => exact h (.inr hc)
  | held => exact h ht
  | recvIssue hc => simp [hc] at ht
  | sendDone | settle | recvDone | deselect | frameError | accepted | mismatch | recover | post | reset | sleep =>
    simp at ht

theorem CtrlMove.exchangeInv (m : CtrlMove s t) (h : ExchangeInv s) : ExchangeInv t := by
  obtain ⟨hrst, hsel, hselW, hfits, hreq⟩ := h
  obtain ⟨hsel', hselW'⟩ := m.selected hsel hselW
  exact ⟨m.frame.rstN.trans hrst, hsel', hselW', m.xferFits hfits, m.request hreq⟩

theorem WireMove.xferFits (m : WireMove s t) (h : xferFits s = true) : xferFits t = true := by
  cases m with
  | sending b i _ _ _ hx _ hi =>
    simp only [Machine.xferFits, hx, Bool.and_eq_true, decide_eq_true_eq] at h
    obtain ⟨hstep, -⟩ := h
    simpa [Machine.xferFits, Link.afterBeat, Nat.succ_le_of_lt hi] using hstep
  | receiving acc _ _ _ _ hx hl =>
    simp only [Machine.xferFits, hx, Bool.and_eq_true, decide_eq_true_eq] at h
    obtain ⟨hstep, -⟩ := h
    simpa [Machine.xferFits, Link.afterBeat, Nat.succ_le_of_lt hl] using hstep
  | held => exact h

theorem WireMove.exchangeInv (m : WireMove s t) (h : ExchangeInv s) : ExchangeInv t := by
  obtain ⟨hrst, hsel, hselW, hfits, hreq⟩ := h
  have f := m.frame
  refine ⟨?_, ?_, ?_, m.xferFits hfits, ?_⟩ <;> simpa only [f.ctrl, f.selW]

/-! ### The peripheral's side of a reply -/

/-- A reply is about the peripheral block, the parameters, the two buffers and their enables alone. -/
theorem ReplyInv.congr (h : ReplyInv s) (hp : t.per = s.per) (hq : t.params = s.params)
    (hi : t.link.inFifo = s.link.inFifo) (ho : t.link.outFifo = s.link.outFifo) (hie : t.link.inEn = s.link.inEn)
    (hoe : t.link.outEn = s.link.outEn) : ReplyInv t := by
  simpa only [ReplyInv, hp, hq, hi, ho, hie, hoe] using h

theorem framed_framedWord (v : Half) : framed (framedWord v) = true := by
  rw [framed_iff]
  exact headerOf_word _

/-- `P_CHECK_OUT` skips the cycle, or goes on with nothing queued (R172). -/
theorem Per.tookOutCount_cases (k : Nat) (p : Per) :
    (p.tookOutCount k).pstep = .sleep ∨ (k = 0 ∧ (p.tookOutCount k).pstep = .checkIn) := by
  by_cases hk : k = 0 <;> simp [hk]

/-- `P_CHECK_IN` waits, or goes on with a whole packet pending (R173). -/
theorem Per.tookInCount_cases (k : Nat) (p : Per) :
    (p.tookInCount k).pstep = .sleep ∨ (4 ≤ k ∧ (p.tookInCount k).pstep = .recv) := by
  by_cases hk : 4 ≤ k <;> simp [hk, Config.pktBytes]

/-- Inbound buffering is on exactly while the peripheral listens (R171, R175, R185). -/
theorem PerMove.listening (m : PerMove s t) (h : s.link.inEn = s.per.pstep.listening) :
    t.link.inEn = t.per.pstep.listening := by
  cases m with
  | checkOut hc =>
    rw [hc] at h
    rcases Per.tookOutCount_cases s.link.outFifo.length s.per with e | ⟨-, e⟩ <;> rw [e] <;> exact h
  | checkIn hc =>
    rw [hc] at h
    rcases Per.tookInCount_cases s.link.inFifo.length s.per with e | ⟨-, e⟩ <;> rw [e] <;> exact h
  | initIn | disableIn | enableIn => rfl
  | initOut hc | recv _ _ hc | noiseSpent hc | noise hc | constant _ hc | measurement hc | unrecognized hc | sample hc
  | send hc | reset hc | enableOut hc | sleep hc => simp [h, hc, PStep.listening]

/-- Outbound buffering is on exactly where a reply may be queued (R171, R183, R184). -/
theorem PerMove.replying (m : PerMove s t) (h : s.link.outEn = s.per.pstep.replying) :
    t.link.outEn = t.per.pstep.replying := by
  cases m with
  | checkOut hc =>
    rw [hc] at h
    rcases Per.tookOutCount_cases s.link.outFifo.length s.per with e | ⟨-, e⟩ <;> rw [e] <;> exact h
  | checkIn hc =>
    rw [hc] at h
    rcases Per.tookInCount_cases s.link.inFifo.length s.per with e | ⟨-, e⟩ <;> rw [e] <;> exact h
  | initOut | reset | enableOut => rfl
  | initIn hc | recv _ _ hc | disableIn hc | noiseSpent hc | noise hc | constant _ hc | measurement hc | unrecognized hc
  | sample hc | send hc | enableIn hc | sleep hc => simp [h, hc, PStep.replying]

/-- Only bytes that are taken or dropped leave the inbound buffer at the peripheral's turn, and none come. -/
theorem PerMove.inFifo_le (m : PerMove s t) : t.link.inFifo.length ≤ s.link.inFifo.length := by
  cases m with
  | recv b rest _ hi => simp [hi]
  | reset => exact Nat.zero_le _
  | _ => exact le_rfl

/-- A reply is queued only where none is, so that at most one ever is (R172, R182). -/
theorem PerMove.outFifo_le (m : PerMove s t) (hl : s.link.outFifo.length ≤ 4)
    (he : s.per.pstep.beforeReply = true → s.link.outFifo = []) : t.link.outFifo.length ≤ 4 := by
  cases m with
  | send hc =>
    have hempty : s.link.outFifo = [] := he (by rw [hc]; rfl)
    simp [hempty]
  | reset => exact Nat.zero_le _
  | _ => exact hl

/-- `P_CHECK_OUT` goes on where nothing is queued, and nothing is queued until the cycle's own reply (R172, R182). -/
theorem PerMove.outFifo_empty (m : PerMove s t) (he : s.per.pstep.beforeReply = true → s.link.outFifo = [])
    (ht : t.per.pstep.beforeReply = true) : t.link.outFifo = [] := by
  cases m with
  | checkOut =>
    rcases Per.tookOutCount_cases s.link.outFifo.length s.per with e | ⟨hk, -⟩
    · rw [e] at ht
      cases ht
    · exact List.eq_nil_of_length_eq_zero hk
  | reset => rfl
  | checkIn hc | recv _ _ hc | disableIn hc | constant _ hc | measurement hc | sample hc =>
    exact he (by rw [hc]; rfl)
  | initIn | initOut | noiseSpent | noise | unrecognized | send | enableOut | enableIn | sleep =>
    simp [PStep.beforeReply] at ht

/-- `P_RECV` is reached only where a whole packet is pending (R173, R216). -/
theorem PerMove.packet_pending (m : PerMove s t) (ht : t.per.pstep = .recv) : 4 ≤ t.link.inFifo.length := by
  cases m with
  | checkIn =>
    rcases Per.tookInCount_cases s.link.inFifo.length s.per with e | ⟨hk, -⟩
    · cases e.symm.trans ht
    · exact hk
  | checkOut =>
    rcases Per.tookOutCount_cases s.link.outFifo.length s.per with e | ⟨-, e⟩ <;> cases e.symm.trans ht
  | _ => cases ht

/-- `P_SEND` is reached only with a reply that has the sentinel (R109). -/
theorem PerMove.reply_framed (m : PerMove s t) (ht : t.per.pstep = .send) : framed t.per.pRsp = true := by
  cases m with
  | constant | sample => exact framed_framedWord _
  | checkOut =>
    rcases Per.tookOutCount_cases s.link.outFifo.length s.per with e | ⟨-, e⟩ <;> cases e.symm.trans ht
  | checkIn =>
    rcases Per.tookInCount_cases s.link.inFifo.length s.per with e | ⟨-, e⟩ <;> cases e.symm.trans ht
  | _ => cases ht

theorem PerMove.replyInv (m : PerMove s t) (h : ReplyInv s) : ReplyInv t := by
  obtain ⟨hrst, hin, hout, hil, hol, hempty, -, -⟩ := h
  refine ⟨m.frame.rstN.trans hrst, m.listening hin, m.replying hout, ?_, m.outFifo_le hol hempty,
    m.outFifo_empty hempty, m.packet_pending, m.reply_framed⟩
  rw [m.frame.params]
  exact m.inFifo_le.trans hil

/-- A beat neither overfills the inbound buffer nor takes from it. -/
theorem Link.afterBeat_inFifo_bounds {depth : Nat} {d : Byte} {x : Xfer} {l : Link} (h : l.inFifo.length ≤ depth) :
    l.inFifo.length ≤ (l.afterBeat depth d x).inFifo.length ∧ (l.afterBeat depth d x).inFifo.length ≤ depth := by
  rcases Link.afterBeat_inFifo depth d x l with ⟨hlt, e⟩ | e <;> rw [e]
  · simpa using hlt
  · exact ⟨le_rfl, h⟩

/-- A beat only takes from the outbound buffer. -/
theorem Link.afterBeat_outFifo_le (depth : Nat) (d : Byte) (x : Xfer) (l : Link) :
    (l.afterBeat depth d x).outFifo.length ≤ l.outFifo.length := by
  rcases Link.afterBeat_outFifo depth d x l with e | e <;> simp [e]

theorem ReplyInv.afterBeat (h : ReplyInv s) (d : Byte) (x : Xfer) (n : Inputs) :
    ReplyInv { s with link := s.link.afterBeat s.params.inDepth d x, inputs := n } := by
  obtain ⟨hrst, hin, hout, hil, hol, hempty, hrecv, hsend⟩ := h
  obtain ⟨hgrow, hfit⟩ := Link.afterBeat_inFifo_bounds (d := d) (x := x) hil
  have hle := Link.afterBeat_outFifo_le s.params.inDepth d x s.link
  refine ⟨hrst, hin, hout, hfit, hle.trans hol, fun hb => ?_, fun hr => (hrecv hr).trans hgrow, hsend⟩
  rw [hempty hb] at hle
  exact List.eq_nil_of_length_eq_zero (Nat.le_zero.1 hle)

theorem WireMove.replyInv (m : WireMove s t) (h : ReplyInv s) : ReplyInv t := by
  cases m with
  | sending | receiving => exact h.afterBeat _ _ _
  | held => exact h

theorem WireMove.drawsAllowed (m : WireMove s t) (h : s.inputs.drawsAllowed s.params = true) :
    t.inputs.drawsAllowed t.params = true := by
  cases m with
  | sending _ _ _ _ _ _ _ _ _ ha => exact ha h
  | receiving _ _ _ _ _ _ _ _ _ _ _ ha => exact ha h
  | held => exact h

/-! ### The invariant of the machine -/

theorem CtrlMove.inv (m : CtrlMove s t) (hr : RetryInv t) (h : Inv s) : Inv t := by
  obtain ⟨hok, -, hex, hrep, hdraw⟩ := h
  have f := m.frame
  refine ⟨f.params ▸ hok, hr, m.exchangeInv hex, hrep.congr f.per f.params f.inFifo f.outFifo f.inEn f.outEn, ?_⟩
  rw [f.inputs, f.params]
  exact hdraw

theorem PerMove.inv (m : PerMove s t) (hr : RetryInv t) (h : Inv s) : Inv t := by
  obtain ⟨hok, -, hex, hrep, hdraw⟩ := h
  have f := m.frame
  refine ⟨f.params ▸ hok, hr, hex.congr f.ctrl f.params f.selW f.xfer, m.replyInv hrep, ?_⟩
  rw [Inputs.drawsAllowed, f.params, f.fillsDrawn, f.underflowsDrawn]
  exact hdraw

theorem WireMove.inv (m : WireMove s t) (hr : RetryInv t) (h : Inv s) : Inv t := by
  obtain ⟨hok, -, hex, hrep, hdraw⟩ := h
  exact ⟨m.frame.params ▸ hok, hr, m.exchangeInv hex, m.replyInv hrep, m.drawsAllowed hdraw⟩

/-- Every move that puts neither block into reset keeps the invariant. -/
theorem Move.inv (m : Move s t) (h : Inv s) (hc : t.ctrl.rstN = true) (hp : t.per.rstN = true) : Inv t := by
  have hadv : Inv s.advance := h
  obtain ⟨-, hretry, ⟨hcs, -⟩, ⟨hps, -⟩, -⟩ := h
  have hr : RetryInv t := m.retryInv hretry
  cases m with
  | controller _ _ m => exact m.inv hr hadv
  | peripheral _ _ m => exact m.inv hr hadv
  | wire _ m => exact m.inv hr hadv
  | controllerHeld => cases hc
  | peripheralHeld => cases hp
  | platform =>
    rw [Ctrl.setPin_rstN] at hc
    rw [Per.setPin_rstN] at hp
    rw [Ctrl.setPin_of_high hc hcs, Per.setPin_of_high hp hps]
    exact hadv

end

/-- Settles O57: a step is a move, and each part of the invariant is kept by the move of each agent. -/
theorem everyStepKeepsTheInvariant : Obligations.EveryStepKeepsTheInvariant :=
  fun _ _ h hstep hc hp => (step_move hstep).2.inv h hc hp

/-- Settles O56: both sides of the wire are idle and empty, no count has begun, and no byte has been drawn. -/
theorem resetSatisfiesTheInvariant : Obligations.ResetSatisfiesTheInvariant := by
  refine ⟨by decide, by decide, by decide, by decide, ?_⟩
  exact (Inputs.drawsAllowed_iff _ _).2 ⟨DrawRule.allows_nil _, DrawRule.allows_nil _⟩

/-! ### The ports -/

section
variable {s : State} {o : ByteOrder}

/-- An operation belongs to one interface: no operation of the controller is the transport's and a delay (R229). -/
theorem ctrlOpCode_or_ctrlDelayCode (op : Op) : ctrlOpCode op = none ∨ ctrlDelayCode op = none := by
  cases op <;> simp [ctrlOpCode, ctrlDelayCode]

theorem Ctrl.op_of_reset {c : Ctrl} (h : c.rstN = false) : c.op o = none := by
  simp [Ctrl.op, h]

theorem Per.op_of_reset {p : Per} (h : p.rstN = false) : p.op o = none := by
  simp [Per.op, h]

/-- The controller requests one interface at a time: what it requests is one operation. -/
theorem Ctrl.ports_one_request (o : ByteOrder) (c : Ctrl) :
    ¬((c.ports o).tReq = true ∧ (c.ports o).tmStart = true) := by
  unfold Ctrl.ports
  cases c.op o with
  | none => simp
  | some op => rcases ctrlOpCode_or_ctrlDelayCode op with h | h <;> simp [h]

/-- The peripheral requests one interface at a time. -/
theorem Per.ports_one_request (o : ByteOrder) (p : Per) :
    ¬((p.ports o).tReq = true ∧ (p.ports o).tmStart = true) ∧ ¬((p.ports o).tReq = true ∧ (p.ports o).mReq = true) ∧
      ¬((p.ports o).tmStart = true ∧ (p.ports o).mReq = true) := by
  unfold Per.ports
  cases p.op o with
  | none => simp
  | some op => cases op <;> simp [perOpCode]

/-- The end of a `receive` loads the four bytes that have come (R135). -/
theorem controllerStep_received {b : Bytes4} (hc : s.ctrl.cstep = .recv) (hx : s.link.xfer = .recv b.toList) :
    controllerStep s = .next { s with ctrl := s.ctrl.received s.params.cOrder b, link := s.link.finish } := by
  rw [controllerStep_recv hc]
  simp [controllerRecv, hx, State.ctrlLink]

theorem ctrlInPorts_of_received {b : Bytes4} (hr : s.ctrl.rstN = true) (hc : s.ctrl.cstep = .recv)
    (hx : s.link.xfer = .recv b.toList) :
    s.ctrlInPorts.tAck = true ∧ s.ctrlInPorts.tRdata = some (wdata b) := by
  simp [State.ctrlInPorts, Ctrl.op, hr, hc, Link.received?, hx, rdataBytes]

/-- `P_RECV` loads the four oldest bytes (R174). -/
theorem peripheralStep_received {b : Bytes4} {rest : List Byte} (hp : s.per.pstep = .recv)
    (hi : s.link.inFifo = b.toList ++ rest) :
    peripheralStep s = .next { s with
      per := s.per.received s.params.pOrder b, link := { s.link with inFifo := rest } } := by
  rw [peripheralStep_recv hp]
  simp [peripheralRecv, Link.receive, hi]

theorem perInPorts_of_packet {b : Bytes4} {rest : List Byte} (hr : s.per.rstN = true) (hp : s.per.pstep = .recv)
    (hi : s.link.inFifo = b.toList ++ rest) :
    s.perInPorts.tAck = true ∧ s.perInPorts.tRdata = some (wdata b) := by
  simp [State.perInPorts, Per.op, hr, hp, Link.receive, hi, rdataBytes]

theorem perInPorts_checkOut (hr : s.per.rstN = true) (hp : s.per.pstep = .checkOut) :
    s.perInPorts.tAck = true ∧ s.perInPorts.tRdata = some (rdataCount s.link.outFifo.length) := by
  simp [State.perInPorts, Per.op, hr, hp, perOpCode, Link.outboundPending]

theorem perInPorts_checkIn (hr : s.per.rstN = true) (hp : s.per.pstep = .checkIn) :
    s.perInPorts.tAck = true ∧ s.perInPorts.tRdata = some (rdataCount s.link.inFifo.length) := by
  simp [State.perInPorts, Per.op, hr, hp, perOpCode, Link.inboundPending]

theorem perInPorts_sample (hr : s.per.rstN = true) (hp : s.per.pstep = .sample) :
    s.perInPorts.mAck = true ∧ s.perInPorts.mData = some s.inputs.sample := by
  simp [State.perInPorts, Per.op, hr, hp]

end

/-- Settles O55: the table of each block is read off row by row, an operation belongs to one interface
(`Ctrl.ports_one_request`, `Per.ports_one_request`), and each step loads what its input port carries. -/
theorem portsShowEachStepsTransaction : Obligations.PortsShowEachStepsTransaction := by
  refine ⟨?ctrlTable, ?perTable, ?ctrlReset, ?perReset, Ctrl.ports_one_request, Per.ports_one_request, ?ctrlObs,
    ?perObs, wdata_bytes, ?ctrlRecv, ?checkOut, ?checkIn, ?perRecv, ?sample⟩
  case ctrlTable =>
    intro o c hr
    cases hc : c.cstep <;> simp [Ctrl.ports, Ctrl.op, hr, hc, ctrlOpCode, ctrlDelayCode, Op.wdata?, Ctrl.txBytes]
  case perTable =>
    intro o p hr
    cases hp : p.pstep <;> simp [Per.ports, Per.op, hr, hp, perOpCode, Op.wdata?, Per.txBytes]
  case ctrlReset =>
    intro o c hr
    simp [Ctrl.ports, Ctrl.op_of_reset hr]
  case perReset =>
    intro o p hr
    simp [Per.ports, Per.op_of_reset hr]
  case ctrlObs =>
    intro o c
    exact ⟨by cases hp : c.phase <;> simp [Ctrl.ports, phaseCode, hp], rfl, rfl, rfl, rfl, rfl⟩
  case perObs => exact fun o p => ⟨rfl, rfl⟩
  case ctrlRecv =>
    intro s b hrun hc hx
    obtain ⟨hack, hdata⟩ := ctrlInPorts_of_received (s := s.advance) (ctrl_rstN_of_running (s := s) hrun) hc hx
    obtain ⟨h0, h1, h2, h3⟩ := wdata_bytes b
    have hstep := (step_controller hrun).trans (controllerStep_received hc hx)
    exact ⟨_, _, hstep, hack, hdata, h0, h1, h2, h3, by simp⟩
  case checkOut =>
    intro s hrun hp hlt
    have hstep := (step_peripheral hrun).trans (peripheralStep_checkOut hp)
    obtain ⟨hack, hdata⟩ := perInPorts_checkOut (s := s.advance) (per_rstN_of_running (s := s) hrun) hp
    exact ⟨_, _, hstep, hack, hdata, rdataCount_toNat hlt, by simp [rdataCount_toNat hlt]⟩
  case checkIn =>
    intro s hrun hp hlt
    have hstep := (step_peripheral hrun).trans (peripheralStep_checkIn hp)
    obtain ⟨hack, hdata⟩ := perInPorts_checkIn (s := s.advance) (per_rstN_of_running (s := s) hrun) hp
    exact ⟨_, _, hstep, hack, hdata, rdataCount_toNat hlt, by simp [rdataCount_toNat hlt]⟩
  case perRecv =>
    intro s b rest hrun hp hi
    obtain ⟨hack, hdata⟩ := perInPorts_of_packet (s := s.advance) (per_rstN_of_running (s := s) hrun) hp hi
    obtain ⟨h0, h1, h2, h3⟩ := wdata_bytes b
    have hstep := (step_peripheral hrun).trans (peripheralStep_received hp hi)
    exact ⟨_, _, hstep, hack, hdata, h0, h1, h2, h3, by simp⟩
  case sample =>
    intro s hrun hp
    have hstep := (step_peripheral hrun).trans (peripheralStep_sample hp)
    obtain ⟨hack, hdata⟩ := perInPorts_sample (s := s.advance) (per_rstN_of_running (s := s) hrun) hp
    exact ⟨_, _, hstep, hack, hdata, rfl⟩

end Sys2Proof.Machine

/-! PROOFS of the memory statements (spec/20_memory.md): the place of the bytes of a packet, the bytes the two blocks
move over the link, and what the peripheral's turn sees of the controller block. -/

namespace Sys2Proof

/-! ### Bytes on the wire -/

theorem takeBytes4_eq_none {l : List Byte} (h : l.length < 4) : takeBytes4 l = none := by
  rw [← Option.not_isSome_iff_eq_none, takeBytes4_isSome]
  exact Nat.not_le.2 h

/-- Settles O20: no four bytes come off a stream that is shorter. -/
theorem shortStreamsHoldNoPacket : Obligations.ShortStreamsHoldNoPacket := by
  intro ctx o bs hlen
  unfold decode
  rw [takeBytes4_eq_none hlen]

/-- Settles O22: the four places are those `ser` names. -/
theorem serialiserPlacesEveryByte : Obligations.SerialiserPlacesEveryByte :=
  ⟨fun _ _ => ⟨rfl, rfl⟩, by decide, by decide⟩

/-- A header read in the other byte order has its two bytes swapped (R74). -/
theorem header_deser_ser_of_ne {o o' : ByteOrder} (h : o ≠ o') (p : Packet) :
    (deser o' (ser o p)).header = halfOf (lowByte p.header) (highByte p.header) := by
  cases o <;> cases o'
  case little.big | big.little => rfl
  case little.little | big.big => exact absurd rfl h

/-- Settles O24: the sentinel with its two bytes swapped is another header. -/
theorem differentByteOrdersNeverFrame : Obligations.DifferentByteOrdersNeverFrame := by
  intro o o' payload hne
  have hswapped : halfOf (lowByte Config.sentinel) (highByte Config.sentinel) ≠ 0xC819#16 := by decide
  rwa [framed_eq_false, headerOf_word, header_deser_ser_of_ne hne]

end Sys2Proof

namespace Sys2Proof.Machine

/-! ### Runs of a given number of steps -/

section
variable {s t : State}

theorem stepN_succ_of_next (k : Nat) (h : step s = .next t) : stepN (k + 1) s = stepN k t := by
  simp only [stepN, h]

theorem stepN_one_of_next (h : step s = .next t) : stepN 1 s = .next t :=
  stepN_succ_of_next 0 h

/-- A run goes on from the state its first `m` steps lead to. -/
theorem stepN_add_of_next {m : Nat} (k : Nat) (h : stepN m s = .next t) : stepN (m + k) s = stepN k t := by
  induction m generalizing s with
  | zero =>
    cases h
    rw [Nat.zero_add]
  | succ m ih =>
    rw [Nat.succ_add]
    cases hs : step s with
    | next u =>
      rw [stepN_succ_of_next _ hs] at h ⊢
      exact ih h
    | fault r => simp [stepN, hs] at h
    | refused r => simp [stepN, hs] at h

/-- The agent listed first has the turn. -/
theorem Inputs.turn_of_sched {n : Inputs} {a : Agent} {rest : List Agent} (h : n.sched = a :: rest) : n.turn = a := by
  simp [Inputs.turn, h]

/-! ### The bytes of a `send` -/

/-- The end of a `send`, once its four beats are done (R133). -/
theorem controllerStep_sent {b : Bytes4} (hc : s.ctrl.cstep = .send) (hx : s.link.xfer = .send b 4) :
    controllerStep s = .next { s with ctrl := s.ctrl.sent, link := s.link.finish } := by
  rw [controllerStep_send hc]
  simp [controllerSend, hx, Config.pktBytes, State.ctrlLink]

/-- The issue of a `send` (R263). -/
theorem controllerStep_issueSend (hc : s.ctrl.cstep = .send) (hx : s.link.xfer = .idle) :
    controllerStep s =
      .next { s with ctrl := s.ctrl.begin, link := s.link.issueSend (s.ctrl.txBytes s.params.cOrder) } := by
  rw [controllerStep_send hc]
  simp [controllerSend, hx, State.ctrlLink]

/-- A beat of a `send` drives its next byte; of the inputs it uses underflow bytes alone (R265). -/
theorem wireStep_sending {b : Bytes4} {i : Nat} {d : Byte} (hw : s.link.selW = true) (hx : s.link.xfer = .send b i)
    (hd : b.toList[i]? = some d) :
    ∃ n : Inputs, n.sched = s.inputs.sched ∧
      wireStep s =
        .next { s with link := s.link.afterBeat s.params.inDepth d (.send b (i + 1)), inputs := n } := by
  have hk : s.link.beatKind = some (.sending b i d) := by simp [Link.beatKind, hw, hx, Bytes4.byte?, hd]
  obtain ⟨-, hsched, -⟩ := beatOn_inputs s.params (.sending b i d) s.link (s.inputs.beginBeat (i == 0))
  refine ⟨_, hsched, ?_⟩
  simp [wireStep, hk, beatOn_sending, Link.afterBeat]

/-- A link whose inbound side has taken the bytes `ds`, one beat each, and whose transfer has come to `x`. -/
def Link.afterDelivery (ds : List Byte) (x : Xfer) (l : Link) : Link :=
  { l with
    inFifo := l.inFifo ++ ds
    outFifo := if l.outEn then l.outFifo.drop ds.length else l.outFifo
    xfer := x }

/-- With buffering on and room for a byte, a beat delivers it. -/
theorem Link.afterBeat_eq_afterDelivery {depth : Nat} {d : Byte} {x : Xfer} {l : Link} (hi : l.inEn = true)
    (hr : l.inFifo.length < depth) : l.afterBeat depth d x = l.afterDelivery [d] x := by
  simp [Link.afterBeat, Link.afterDelivery, hi, hr]

/-- Deliveries follow one another. -/
theorem Link.afterDelivery_afterDelivery (ds es : List Byte) (x y : Xfer) (l : Link) :
    (l.afterDelivery ds x).afterDelivery es y = l.afterDelivery (ds ++ es) y := by
  unfold Link.afterDelivery
  cases l.outEn <;> simp

theorem Link.afterDelivery_nil {x : Xfer} {l : Link} (h : l.xfer = x) : l.afterDelivery [] x = l := by
  subst h
  simp [Link.afterDelivery]

/-- A `send` of `b` has done `i` beats, and the peripheral's transport takes `k` bytes more (R263, R265). -/
structure Delivering (b : Bytes4) (i k : Nat) (s : State) : Prop where
  rstN : s.ctrl.rstN = true
  overrun : s.link.overrun = false
  selW : s.link.selW = true
  inEn : s.link.inEn = true
  xfer : s.link.xfer = .send b i
  room : s.link.inFifo.length + k ≤ s.params.inDepth

/-- The wire's turn delivers the next byte (R265). -/
theorem Delivering.step_next {b : Bytes4} {i k : Nat} {d : Byte} (h : Delivering b i (k + 1) s)
    (ht : s.inputs.turn = .wire) (hd : b.toList[i]? = some d) :
    ∃ n : Inputs, n.sched = s.inputs.sched.tail ∧
      step s = .next { s with link := s.link.afterDelivery [d] (.send b (i + 1)), inputs := n } := by
  have hrun : Running .wire s := ⟨h.overrun, ht, by simp [State.free, h.rstN]⟩
  obtain ⟨n, hn, hbeat⟩ := wireStep_sending (s := s.advance) h.selW h.xfer hd
  have hlink : s.link.afterBeat s.params.inDepth d (.send b (i + 1)) = s.link.afterDelivery [d] (.send b (i + 1)) :=
    Link.afterBeat_eq_afterDelivery h.inEn (by have := h.room; omega)
  refine ⟨n, hn, ?_⟩
  rw [step_wire hrun, hbeat, ← hlink]
  rfl

/-- After a byte delivered there is room for one byte less. -/
theorem Delivering.afterDelivery {b : Bytes4} {i k : Nat} (h : Delivering b i (k + 1) s) (d : Byte) (n : Inputs) :
    Delivering b (i + 1) k { s with link := s.link.afterDelivery [d] (.send b (i + 1)), inputs := n } where
  rstN := h.rstN
  overrun := h.overrun
  selW := h.selW
  inEn := h.inEn
  xfer := rfl
  room := by
    have := h.room
    simp only [Link.afterDelivery, List.length_append, List.length_singleton]
    omega

/-- The beats that remain of a `send` deliver the bytes `ds` that remain, in order (R213, R265). -/
theorem Delivering.stepN_next {b : Bytes4} {rest : List Agent} (ds : List Byte) {i : Nat}
    (h : Delivering b i ds.length s) (hds : b.toList.drop i = ds)
    (hsched : s.inputs.sched = List.replicate ds.length .wire ++ rest) :
    ∃ n : Inputs, n.sched = rest ∧
      stepN ds.length s =
        .next { s with link := s.link.afterDelivery ds (.send b (i + ds.length)), inputs := n } := by
  induction ds generalizing s i with
  | nil =>
    refine ⟨s.inputs, hsched, ?_⟩
    rw [List.length_nil, Nat.add_zero, Link.afterDelivery_nil h.xfer]
    rfl
  | cons d ds ih =>
    have hd : b.toList[i]? = some d := by rw [← List.head?_drop, hds, List.head?_cons]
    have hds' : b.toList.drop (i + 1) = ds := by rw [← List.tail_drop, hds, List.tail_cons]
    obtain ⟨n, hn, hstep⟩ := h.step_next (Inputs.turn_of_sched hsched) hd
    obtain ⟨m, hm, hrun⟩ := ih (h.afterDelivery d n) hds' (by rw [hn, hsched]; rfl)
    refine ⟨m, hm, ?_⟩
    rw [List.length_cons, stepN_succ_of_next _ hstep, hrun, Link.afterDelivery_afterDelivery, Nat.add_right_comm i]
    rfl

/-- A `send` just issued takes its four beats and completes (R133, R263). -/
theorem Delivering.stepN_sent {b : Bytes4} {rest : List Agent} (h : Delivering b 0 4 s) (hc : s.ctrl.cstep = .send)
    (hsched : s.inputs.sched = List.replicate 4 .wire ++ .controller :: rest) :
    ∃ n : Inputs, n.sched = rest ∧
      stepN 5 s = .next { s with
        ctrl := s.ctrl.sent
        link := (s.link.afterDelivery b.toList (.send b 4)).finish
        inputs := n } := by
  obtain ⟨n, hn, hbeats⟩ := h.stepN_next b.toList rfl hsched
  refine ⟨n.advance, by rw [Inputs.advance_sched, hn, List.tail_cons], ?_⟩
  have hrun : Running .controller
      { s with link := s.link.afterDelivery b.toList (.send b 4), inputs := n } :=
    ⟨h.overrun, Inputs.turn_of_sched hn, h.rstN⟩
  exact (stepN_add_of_next 1 hbeats).trans
    (stepN_one_of_next ((step_controller hrun).trans (controllerStep_sent hc rfl)))

end

/-- Settles O33: the issue makes the transfer `Delivering`, and `Delivering.stepN_sent` takes it to its end. -/
theorem sendDeliversTheRequestBytes : Obligations.SendDeliversTheRequestBytes := by
  intro s rest hrun hc hx hw hi hroom hsched
  have hissue := (step_controller hrun).trans (controllerStep_issueSend hc hx)
  obtain ⟨ho, -, hr⟩ := hrun
  have hissued : Delivering (s.ctrl.txBytes s.params.cOrder) 0 4 { s.advance with
      ctrl := s.ctrl.begin, link := s.link.issueSend (s.ctrl.txBytes s.params.cOrder) } :=
    ⟨hr, ho, hw, hi, rfl, hroom⟩
  obtain ⟨n, hn, hsent⟩ := hissued.stepN_sent hc (congrArg List.tail hsched)
  exact ⟨_, (stepN_succ_of_next 5 hissue).trans hsent, rfl, rfl, rfl, hn, rfl, rfl, hw, hi, rfl, ho, rfl⟩

/-! ### The bytes the peripheral takes -/

/-- Settles O40: the four oldest bytes are a packet for `peripheralStep_received`. -/
theorem peripheralTakesTheFourOldestBytes : Obligations.PeripheralTakesTheFourOldestBytes :=
  ⟨fun _ b0 b1 b2 b3 _ hrun hp hi =>
      (step_peripheral hrun).trans (peripheralStep_received (b := ⟨b0, b1, b2, b3⟩) hp hi),
    fun _ hrun hp => (step_peripheral hrun).trans (peripheralStep_disableIn hp)⟩

/-! ### The peripheral's turn and the controller block -/

/-- An outcome with another controller block in its state. -/
def withCtrl (c : Ctrl) : Host.Outcome State Fault Refusal → Host.Outcome State Fault Refusal
  | .next t => .next { t with ctrl := c }
  | .fault r => .fault r
  | .refused r => .refused r

section
variable (c : Ctrl) (s : State)

/-- A request's meaning does not look at the controller block (R176 to R181). -/
theorem exec_withCtrl_of_request {i : Instr} (hi : i.context = .request) :
    exec i { s with ctrl := c } = withCtrl c (exec i s) := by
  match i, hi with
  | .getIdentity, _ | .getUnit, _ | .getMeasurement, _ | .unrecognized _, _ | .noise _ _, _ => rfl

theorem context_decodeRequestWord (w : Word) : (decodeRequestWord w).context = .request := by
  unfold decodeRequestWord
  split_ifs <;> rfl

theorem peripheralRecv_withCtrl : peripheralRecv { s with ctrl := c } = withCtrl c (peripheralRecv s) := by
  unfold peripheralRecv
  dsimp only
  split <;> rfl

theorem peripheralSend_withCtrl : peripheralSend { s with ctrl := c } = withCtrl c (peripheralSend s) := by
  unfold peripheralSend
  dsimp only
  split <;> rfl

/-- No micro-step of the peripheral looks at the controller block or touches it (R72, R313). -/
theorem peripheralStep_withCtrl : peripheralStep { s with ctrl := c } = withCtrl c (peripheralStep s) := by
  unfold peripheralStep
  cases hp : s.per.pstep with
  | recv => exact peripheralRecv_withCtrl c s
  | send => exact peripheralSend_withCtrl c s
  | validate => exact exec_withCtrl_of_request c s (context_decodeRequestWord _)
  | _ => rfl

end

/-- Settles O54: with the other block in place it is still the peripheral's turn, and `peripheralStep_withCtrl` says
what that turn does. -/
theorem peripheralLearnsNothingOfTheControllerBlock : Obligations.PeripheralLearnsNothingOfTheControllerBlock := by
  intro s c hrun hfree
  have hrun' : Running .peripheral { s with ctrl := c } := by
    have hr := per_rstN_of_running hrun
    obtain ⟨ho, ht, -⟩ := hrun
    exact ⟨ho, ht, by simpa [State.free, hr] using hfree⟩
  have hstep : step { s with ctrl := c } = withCtrl c (step s) := by
    rw [step_peripheral hrun, step_peripheral hrun']
    exact peripheralStep_withCtrl c s.advance
  exact ⟨fun t h => by rw [hstep, h, withCtrl], fun r h => by rw [hstep, h, withCtrl]⟩

end Sys2Proof.Machine

/-! PROOFS of the encoding statements (spec/30_encoding.md): the serialiser and the deserialiser undo one another, the
decoder and the encoder undo one another in every context, the decoder follows the opcode table, and a step runs what
the decoder answers. -/

namespace Sys2Proof

/-! ### The serialiser and the deserialiser -/

@[simp] theorem deser_ser (o : ByteOrder) (p : Packet) : deser o (ser o p) = p := by
  cases o <;> simp [deser, ser]

@[simp] theorem ser_deser (o : ByteOrder) (b : Bytes4) : ser o (deser o b) = b := by
  cases o <;> simp [deser, ser]

/-- Settles O23: the fields are those `deser` names, and the bytes of a field give it back. -/
theorem deserialiserInvertsTheSerialiser : Obligations.DeserialiserInvertsTheSerialiser :=
  ⟨fun _ _ _ _ => ⟨rfl, rfl⟩, deser_ser, ser_deser⟩

/-! ### What the decoder answers -/

/-- The decoder reads four bytes through the deserialiser and leaves the bytes behind them (R77, R105). -/
theorem decode_append (ctx : Context) (o : ByteOrder) (b : Bytes4) (rest : List Byte) :
    decode ctx o (b.toList ++ rest) = .ok (decodeWord ctx (deser o b).word, rest) := rfl

theorem packetOf_of_framed {w : Word} (h : framed w = true) : packetOf w = ⟨Config.sentinel, payloadOf w⟩ :=
  congrArg (Packet.mk · (payloadOf w)) ((framed_iff w).1 h)

/-- The framing check looks at the header alone (R106). -/
@[simp] theorem framed_word (p : Packet) : framed p.word = (p.header == Config.sentinel) := by
  rw [framed, headerOf_word]

/-- A decoded request is well formed, and its packet has the two fields of the word (R108). -/
theorem decodeRequestWord_spec (w : Word) :
    (decodeRequestWord w).wellFormed = true ∧ encodePacket (decodeRequestWord w) = packetOf w := by
  unfold decodeRequestWord
  split_ifs with hf h1 h2 h3
  · exact ⟨rfl, by rw [packetOf_of_framed hf, h1, encodePacket]⟩
  · exact ⟨rfl, by rw [packetOf_of_framed hf, h2, encodePacket]⟩
  · exact ⟨rfl, by rw [packetOf_of_framed hf, h3, encodePacket]⟩
  · exact ⟨by simp [Instr.wellFormed, h1, h2, h3], (packetOf_of_framed hf).symm⟩
  · exact ⟨by simpa [Instr.wellFormed, framed] using hf, rfl⟩

/-- A decoded response is well formed, of its phase, and its packet has the two fields of the word (R110). -/
theorem decodeResponseWord_spec (ph : Phase) (w : Word) :
    (decodeResponseWord ph w).wellFormed = true ∧ (decodeResponseWord ph w).context = .response ph ∧
      encodePacket (decodeResponseWord ph w) = packetOf w := by
  by_cases hf : framed w = true
  · rw [packetOf_of_framed hf]
    cases ph with
    | detectDevice =>
      by_cases hp : payloadOf w = Config.idConst <;>
        simp [decodeResponseWord, hf, hp, Instr.wellFormed, Instr.context, encodePacket]
    | readUnit =>
      by_cases hp : payloadOf w = Config.unitConst <;>
        simp [decodeResponseWord, hf, hp, Instr.wellFormed, Instr.context, encodePacket]
    | readMeasurement => simp [decodeResponseWord, hf, Instr.wellFormed, Instr.context, encodePacket]
  · have hh : headerOf w ≠ Config.sentinel := by simpa [framed] using hf
    cases ph <;> simp [decodeResponseWord, hf, hh, Instr.wellFormed, Instr.context, encodePacket, packetOf]

theorem wellFormed_decodeWord (ctx : Context) (w : Word) : (decodeWord ctx w).wellFormed = true :=
  match ctx with
  | .request => (decodeRequestWord_spec w).1
  | .response ph => (decodeResponseWord_spec ph w).1

theorem context_decodeWord (ctx : Context) (w : Word) : (decodeWord ctx w).context = ctx :=
  match ctx with
  | .request => Machine.context_decodeRequestWord w
  | .response ph => (decodeResponseWord_spec ph w).2.1

theorem encodePacket_decodeWord (ctx : Context) (w : Word) : encodePacket (decodeWord ctx w) = packetOf w :=
  match ctx with
  | .request => (decodeRequestWord_spec w).2
  | .response ph => (decodeResponseWord_spec ph w).2.2

/-- Encoding a decoded word gives the word back. -/
theorem encode_decodeWord (ctx : Context) (w : Word) : encode (decodeWord ctx w) = w := by
  rw [encode, encodePacket_decodeWord, word_packetOf]

/-- Decoding the word of a well-formed instruction in its context gives the instruction back. -/
theorem decodeWord_encode {i : Instr} (h : i.wellFormed = true) : decodeWord i.context (encode i) = i := by
  cases i with
  | getIdentity | getUnit | getMeasurement | rspIdentity | rspUnit => rfl
  | unrecognized c =>
    obtain ⟨⟨h1, h2⟩, h3⟩ : (c ≠ Config.cmdGetIdentity ∧ c ≠ Config.cmdGetUnit) ∧ c ≠ Config.cmdGetMeasurement := by
      simpa [Instr.wellFormed] using h
    simp [decodeWord, Instr.context, encode, encodePacket, decodeRequestWord, h1, h2, h3]
  | noise hd p =>
    have hh : hd ≠ Config.sentinel := bne_iff_ne.1 h
    simp [decodeWord, Instr.context, encode, encodePacket, decodeRequestWord, hh]
  | rspMeasurement m => simp [decodeWord, Instr.context, encode, encodePacket, decodeResponseWord]
  | rspMismatchDetect p | rspMismatchUnit p =>
    have hp := bne_iff_ne.1 h
    simp [decodeWord, Instr.context, encode, encodePacket, decodeResponseWord, hp]
  | rspNoiseDetect hd p | rspNoiseUnit hd p | rspNoiseMeasurement hd p =>
    have hh : hd ≠ Config.sentinel := bne_iff_ne.1 h
    simp [decodeWord, Instr.context, encode, encodePacket, decodeResponseWord, hh]

/-- Settles O17: the deserialiser gives the packet back (`deser_ser`) and the decoder the instruction
(`decodeWord_encode`). -/
theorem encodedInstructionsDecodeBack : Obligations.EncodedInstructionsDecodeBack := by
  intro i hi o rest
  have hword : (deser o (encodeBytes o i)).word = encode i := by rw [encodeBytes, deser_ser, encode]
  rw [decode_append, hword, decodeWord_encode hi]

/-- Settles O18: the instruction is the one the decoder answers; its packet is the deserialised one, so `ser_deser`
gives the bytes. -/
theorem everyFourBytesAreOneInstruction : Obligations.EveryFourBytesAreOneInstruction := by
  intro ctx o b rest
  refine ⟨_, decode_append ctx o b rest, wellFormed_decodeWord _ _, context_decodeWord _ _, ?_⟩
  rw [encodeBytes, encodePacket_decodeWord, packetOf_word, ser_deser]

/-- Settles O21: the bytes are the encodings of the five instructions, which O17 decodes. -/
theorem specWordsDecode : Obligations.SpecWordsDecode :=
  ⟨encodedInstructionsDecodeBack .getIdentity rfl .little [],
    encodedInstructionsDecodeBack .getUnit rfl .big [],
    encodedInstructionsDecodeBack (.unrecognized 0x0009#16) rfl .little [],
    encodedInstructionsDecodeBack .rspIdentity rfl .little [],
    encodedInstructionsDecodeBack (.rspMeasurement 0x0929#16) rfl .big []⟩

/-! ### The opcode table -/

/-- The law `EncodesInRow` of every instruction: the first row that matches its word is its own (R114). -/
theorem firstRow_encode {i : Instr} (h : i.wellFormed = true) :
    (firstRow i.context (encode i)).map OpRow.mnemonic = some i.mnemonic :=
  match i, h with
  | .getIdentity, h => Laws.EncodesInRow.getIdentity h
  | .getUnit, h => Laws.EncodesInRow.getUnit h
  | .getMeasurement, h => Laws.EncodesInRow.getMeasurement h
  | .unrecognized c, h => Laws.EncodesInRow.unrecognized c h
  | .noise hd p, h => Laws.EncodesInRow.noise hd p h
  | .rspIdentity, h => Laws.EncodesInRow.rspIdentity h
  | .rspMismatchDetect p, h => Laws.EncodesInRow.rspMismatchDetect p h
  | .rspNoiseDetect hd p, h => Laws.EncodesInRow.rspNoiseDetect hd p h
  | .rspUnit, h => Laws.EncodesInRow.rspUnit h
  | .rspMismatchUnit p, h => Laws.EncodesInRow.rspMismatchUnit p h
  | .rspNoiseUnit hd p, h => Laws.EncodesInRow.rspNoiseUnit hd p h
  | .rspMeasurement m, h => Laws.EncodesInRow.rspMeasurement m h
  | .rspNoiseMeasurement hd p, h => Laws.EncodesInRow.rspNoiseMeasurement hd p h

/-- Settles O19: every word is the word of the well-formed instruction it decodes to, so `firstRow_encode` gives its
row. -/
theorem decoderFollowsTheOpcodeTable : Obligations.DecoderFollowsTheOpcodeTable := by
  intro ctx w
  have hrow := firstRow_encode (wellFormed_decodeWord ctx w)
  rwa [context_decodeWord, encode_decodeWord] at hrow

end Sys2Proof

namespace Sys2Proof.Machine

/-! ### The decoded instruction and the machine -/

/-- A response row is judged in the phase of its context. -/
theorem exec_eq_judge {i : Instr} {ph : Phase} (hi : i.context = .response ph) (s : State) :
    ∃ f, exec i s = s.judge ph f := by
  match i, hi with
  | .rspIdentity, rfl | .rspMismatchDetect _, rfl | .rspNoiseDetect _ _, rfl | .rspUnit, rfl
  | .rspMismatchUnit _, rfl | .rspNoiseUnit _ _, rfl | .rspMeasurement _, rfl
  | .rspNoiseMeasurement _ _, rfl => exact ⟨_, rfl⟩

/-- Settles O13: `judge` refuses a row of another phase. -/
theorem responsesOutOfPhaseAreRefused : Obligations.ResponsesOutOfPhaseAreRefused := by
  intro i s ph hi hne
  obtain ⟨f, hexec⟩ := exec_eq_judge hi s
  rw [hexec, State.judge_of_ne hne]

/-- Settles O50: the peripheral's turn at `P_VALIDATE` runs the decoded request. -/
theorem stepRunsTheDecodedRequest : Obligations.StepRunsTheDecodedRequest := by
  rintro s _ hrun hp rfl
  exact (step_peripheral hrun).trans (peripheralStep_validate hp)

/-- Settles O51: the controller's turn at `C_VALIDATE` runs the decoded response. -/
theorem stepRunsTheDecodedResponse : Obligations.StepRunsTheDecodedResponse := by
  rintro s _ hrun hc rfl
  exact (step_controller hrun).trans (controllerStep_validate hc)

end Sys2Proof.Machine

/-! PROOFS of the controller statements (spec/40_controller.md): the judging of a response, the micro-steps of the
controller, its whole cycle, the bytes of a `receive`, and the tuned exchange. -/

namespace Sys2Proof.Machine

/-! ### The judging of a response -/

/-- Settles O9: both rows are judged in their phase. -/
theorem detectDeviceJudgesTheIdentity : Obligations.DetectDeviceJudgesTheIdentity :=
  fun _ hp => ⟨State.judge_of_phase hp, fun _ _ => State.judge_of_phase hp⟩

/-- Settles O10: both rows are judged in their phase. -/
theorem readUnitJudgesTheUnit : Obligations.ReadUnitJudgesTheUnit :=
  fun _ hp => ⟨State.judge_of_phase hp, fun _ _ => State.judge_of_phase hp⟩

/-- Settles O12: the noise row of each phase is judged in that phase, and does not look at the payload. -/
theorem badlyFramedResponsesAreCounted : Obligations.BadlyFramedResponsesAreCounted :=
  fun _ _ _ _ => ⟨State.judge_of_phase, State.judge_of_phase, State.judge_of_phase⟩

/-- A success that stays in its phase changes the count alone. -/
theorem Ctrl.succeed_self {ph : Phase} {c : Ctrl} (h : c.phase = ph) : c.succeed ph = { c with cRetry := 0 } := by
  subst h
  rfl

/-- Settles O11: the measurement row is judged in its phase, which it keeps. -/
theorem readMeasurementEmitsTheReading : Obligations.ReadMeasurementEmitsTheReading := by
  intro s m hp
  have hexec : exec (.rspMeasurement m) s =
      .next { s with ctrl := ((s.ctrl.begin.succeed .readMeasurement).emitReading m).goto .post } :=
    State.judge_of_phase hp
  rw [hexec, Ctrl.succeed_self (c := s.ctrl.begin) hp]
  rfl

/-- The events of a success: a reading, in ReadMeasurement alone (R137, R138, R139). -/
def acceptEvents (ph : Phase) (payload : Half) : List Event :=
  if ph = .readMeasurement then [.reading (decodeWhole (asSigned16 payload)) (decodeFrac (asSigned16 payload))] else []

@[simp] theorem Ctrl.accept_log (c : Ctrl) (v : Half) :
    (c.accept v).out.log = c.out.log ++ acceptEvents c.phase v := by
  unfold Ctrl.accept acceptEvents
  split <;> simp [*]

theorem eFrame_not_mem_acceptEvents (ph : Phase) (v h : Half) : Event.eFrame h ∉ acceptEvents ph v := by
  unfold acceptEvents
  split <;> simp

/-- Settles O15: of the three outcomes (`exec_response_cases`) a wrong header leaves the first alone, which does not
speak of the payload. -/
theorem validationChecksTheHeaderFirst : Obligations.ValidationChecksTheHeaderFirst := by
  constructor
  · intro s w
    rcases exec_response_cases w s with ⟨hf, e⟩ | ⟨hf, -, e⟩ | ⟨hf, -, e⟩
    · exact ⟨_, e, by simp [hf]⟩
    · exact ⟨_, e, .inr (by simp), by simp [hf],
        fun _ => ⟨_, Ctrl.accept_log _ _, eFrame_not_mem_acceptEvents _ _⟩⟩
    · exact ⟨_, e, .inl (by simp), by simp [hf], fun _ => ⟨_, rfl, by simp⟩⟩
  · intro s w w' hh hf
    rcases exec_response_cases w s with ⟨-, e⟩ | ⟨hf', -⟩ | ⟨hf', -⟩
    · rcases exec_response_cases w' s with ⟨-, e'⟩ | ⟨hf', -⟩ | ⟨hf', -⟩
      · rw [e, e', hh]
      · exact absurd (hh.trans hf') hf
      · exact absurd (hh.trans hf') hf
    · exact absurd hf' hf
    · exact absurd hf' hf

/-! ### The micro-steps of the controller -/

/-- Settles O29: the word is the phase's request, written out. -/
theorem controllerBuildsThePhasesRequest : Obligations.ControllerBuildsThePhasesRequest := by
  intro s hrun hc
  rw [step_controller hrun, controllerStep_build (s := s.advance) hc, Ctrl.build, State.advance_ctrl]
  cases s.ctrl.phase <;> rfl

/-- Settles O30: the two steps `controllerStep_select` and `controllerStep_deselect`. -/
theorem controllerDrivesSelect : Obligations.ControllerDrivesSelect :=
  fun _ hrun =>
    ⟨fun hc => (step_controller hrun).trans (controllerStep_select hc),
      fun hc => (step_controller hrun).trans (controllerStep_deselect hc)⟩

/-- Settles O31: each of the three steps is the sequencer going on. -/
theorem controllerDelaysAndResetMoveOnlyTheSequencer : Obligations.ControllerDelaysAndResetMoveOnlyTheSequencer :=
  fun _ hrun =>
    ⟨fun hc => (step_controller hrun).trans (controllerStep_settle hc),
      fun hc => (step_controller hrun).trans (controllerStep_reset hc),
      fun hc => (step_controller hrun).trans (controllerStep_sleep hc)⟩

/-- Settles O32: the two branches of `Ctrl.posted`. -/
theorem postCheckFiresAboveFive : Obligations.PostCheckFiresAboveFive := by
  intro s hrun hc
  rw [step_controller hrun, controllerStep_post (s := s.advance) hc]
  by_cases hs : 5 < s.ctrl.cRetry
  · rw [if_pos hs, Ctrl.posted_of_spent (c := s.advance.ctrl) hs]
    rfl
  · rw [if_neg hs, Ctrl.posted_of_not_spent (c := s.advance.ctrl) hs]
    rfl

/-! ### Nothing is refused -/

section
variable {s : State}

/-- The controller always has a next state: the response it judges is decoded in its own phase (R110, R153). -/
theorem controllerStep_next (s : State) : ∃ t, controllerStep s = .next t := by
  cases hc : s.ctrl.cstep with
  | build => exact ⟨_, controllerStep_build hc⟩
  | select => exact ⟨_, controllerStep_select hc⟩
  | send =>
    rw [controllerStep_send hc]
    rcases controllerSend_cases s with ⟨-, e⟩ | ⟨-, e⟩ | ⟨-, e⟩ <;> exact ⟨_, e⟩
  | settle => exact ⟨_, controllerStep_settle hc⟩
  | recv =>
    rw [controllerStep_recv hc]
    rcases controllerRecv_cases s with ⟨-, e⟩ | ⟨_, _, -, e⟩ | ⟨-, e⟩ <;> exact ⟨_, e⟩
  | deselect => exact ⟨_, controllerStep_deselect hc⟩
  | validate =>
    obtain ⟨c, e⟩ := exec_response_next s.ctrl.cRxp s
    exact ⟨_, (controllerStep_validate hc).trans e⟩
  | post => exact ⟨_, controllerStep_post hc⟩
  | reset => exact ⟨_, controllerStep_reset hc⟩
  | sleep => exact ⟨_, controllerStep_sleep hc⟩

/-- The peripheral has a next state where `P_RECV` finds a whole packet and `P_SEND` room for a reply (R215, R216). -/
theorem peripheralStep_next (hrecv : s.per.pstep = .recv → 4 ≤ s.link.inFifo.length)
    (hsend : s.per.pstep = .send → s.link.outEn = true ∧ s.link.outFifo.length + 4 ≤ s.params.outDepth) :
    ∃ t, peripheralStep s = .next t := by
  cases hp : s.per.pstep with
  | initIn => exact ⟨_, peripheralStep_initIn hp⟩
  | initOut => exact ⟨_, peripheralStep_initOut hp⟩
  | checkOut => exact ⟨_, peripheralStep_checkOut hp⟩
  | checkIn => exact ⟨_, peripheralStep_checkIn hp⟩
  | recv =>
    rw [peripheralStep_recv hp]
    rcases peripheralRecv_cases s with ⟨_, _, -, e⟩ | ⟨hlt, -⟩
    · exact ⟨_, e⟩
    · exact absurd (hrecv hp) (Nat.not_le.2 hlt)
  | disableIn => exact ⟨_, peripheralStep_disableIn hp⟩
  | validate =>
    obtain ⟨p, e⟩ := exec_request_next s.per.pReq s
    exact ⟨_, (peripheralStep_validate hp).trans e⟩
  | sample => exact ⟨_, peripheralStep_sample hp⟩
  | send =>
    rw [peripheralStep_send hp]
    rcases peripheralSend_cases s with ⟨-, e⟩ | ⟨hno, -⟩
    · exact ⟨_, e⟩
    · exact absurd (hsend hp) hno
  | reset => exact ⟨_, peripheralStep_reset hp⟩
  | enableOut => exact ⟨_, peripheralStep_enableOut hp⟩
  | enableIn => exact ⟨_, peripheralStep_enableIn hp⟩
  | sleep => exact ⟨_, peripheralStep_sleep hp⟩

theorem wireStep_next (s : State) : ∃ t, wireStep s = .next t := by
  unfold wireStep
  split <;> exact ⟨_, rfl⟩

/-- The peripheral's part of the invariant gives both preconditions: no reply is queued before the cycle's own. -/
theorem peripheralStep_next_of_inv (h : Inv s) : ∃ t, peripheralStep s = .next t := by
  obtain ⟨⟨-, -, hdepth⟩, -, -, ⟨-, -, hout, -, -, hempty, hrecv, -⟩, -⟩ := h
  refine peripheralStep_next hrecv fun hp => ⟨?_, ?_⟩
  · rw [hout, hp]
    rfl
  · rw [hempty (by rw [hp]; rfl)]
    simpa using hdepth

end

/-- Settles O59: under the invariant both blocks are out of reset, so the step is the turn of an agent, and each agent
has a next state. -/
theorem nothingIsRefusedUnderTheInvariant : Obligations.NothingIsRefusedUnderTheInvariant := by
  intro s h ho
  have hadv : Inv s.advance := h
  obtain ⟨-, -, ⟨hcr, -⟩, ⟨hpr, -⟩, -⟩ := h
  cases ht : s.inputs.turn with
  | controller =>
    rw [step_controller ⟨ho, ht, hcr⟩]
    exact controllerStep_next _
  | peripheral =>
    rw [step_peripheral ⟨ho, ht, by simp [State.free, hcr, hpr]⟩]
    exact peripheralStep_next_of_inv hadv
  | wire =>
    rw [step_wire ⟨ho, ht, by simp [State.free, hcr]⟩]
    exact wireStep_next _
  | platform c p =>
    rw [step_of_turn ⟨ho, ht, by simp [State.free, hcr]⟩]
    exact ⟨_, rfl⟩

end Sys2Proof.Machine

namespace Sys2Proof.Machine

/-! ### The whole cycle of the controller -/

/-- What `ctrlJudge` gives for a wrong header (R136). -/
theorem ctrlJudge_of_frameError {rsp : Packet} (h : rsp.header ≠ 0xC819#16) (w : Nat) (ph : Phase) (retry : Nat) :
    ctrlJudge w ph retry rsp = (ph, satInc w retry, [.eFrame rsp.header]) :=
  if_pos h

/-- What `ctrlJudge` gives for the payload the phase expects (R137, R138, R139). -/
theorem ctrlJudge_of_expected {rsp : Packet} {ph : Phase} (h : rsp.header = 0xC819#16)
    (he : expected ph rsp.payload) (w retry : Nat) :
    ctrlJudge w ph retry rsp = (nextPhase ph, 0, acceptEvents ph rsp.payload) := by
  unfold ctrlJudge
  rw [if_neg (show ¬rsp.header ≠ Config.sentinel from not_not_intro h)]
  cases ph with
  | detectDevice => exact if_pos he
  | readUnit => exact if_pos he
  | readMeasurement => rfl

/-- What `ctrlJudge` gives for another payload (R137, R138). -/
theorem ctrlJudge_of_mismatch {rsp : Packet} {ph : Phase} (h : rsp.header = 0xC819#16)
    (he : ¬expected ph rsp.payload) (w retry : Nat) :
    ctrlJudge w ph retry rsp = (ph, satInc w retry, [.eSemantic rsp.payload]) := by
  unfold ctrlJudge
  rw [if_neg (show ¬rsp.header ≠ Config.sentinel from not_not_intro h)]
  cases ph with
  | detectDevice => exact if_neg he
  | readUnit => exact if_neg he
  | readMeasurement => exact absurd trivial he

/-- The operations of a cycle up to the end of its exchange (R131 to R140). -/
def exchangeOps (o : ByteOrder) (ph : Phase) : List Op :=
  [.select true, .send (ser o ⟨Config.sentinel, cmdFor ph⟩), .wait .settle, .receive, .select false]

/-- A cycle whose response does not bring the count above 5 (R141, R150). -/
theorem ctrlCycle_of_not_spent {w : Nat} {o : ByteOrder} {ph ph' : Phase} {retry retry' : Nat} {b : Bytes4}
    {evs : List Event} (h : ctrlJudge w ph retry (deser o b) = (ph', retry', evs)) (hs : ¬5 < retry') :
    ctrlCycle w o ph retry b = ⟨ph', retry', evs, exchangeOps o ph ++ [.wait .cycle]⟩ := by
  unfold ctrlCycle
  rw [h]
  exact if_neg hs

/-- A cycle whose response brings the count above 5 (R141, R150). -/
theorem ctrlCycle_of_spent {w : Nat} {o : ByteOrder} {ph ph' : Phase} {retry retry' : Nat} {b : Bytes4}
    {evs : List Event} (h : ctrlJudge w ph retry (deser o b) = (ph', retry', evs)) (hs : 5 < retry') :
    ctrlCycle w o ph retry b =
      ⟨.detectDevice, 0, evs ++ [.eBudget], exchangeOps o ph ++ [.reset] ++ [.wait .cycle]⟩ := by
  unfold ctrlCycle
  rw [h]
  exact if_pos hs

section
variable {s t u : State} {b : Bytes4}

/-- A run of the controller alone goes on from the state its first `m` micro-steps lead to. -/
theorem controllerAloneRun_add {m n : Nat} {ops ops' : List Op} (hm : controllerAloneRun b m s = some (t, ops))
    (hn : controllerAloneRun b n t = some (u, ops')) :
    controllerAloneRun b (m + n) s = some (u, ops ++ ops') := by
  induction m generalizing s ops with
  | zero =>
    obtain ⟨rfl, rfl⟩ := Prod.mk.inj (Option.some.inj hm)
    rwa [Nat.zero_add]
  | succ m ih =>
    cases hs : controllerAlone b s with
    | next v =>
      simp only [controllerAloneRun, hs, Option.map_eq_some_iff] at hm
      obtain ⟨⟨t', ops₁⟩, hrun, heq⟩ := hm
      obtain ⟨rfl, rfl⟩ := Prod.mk.inj heq
      rw [Nat.succ_add, controllerAloneRun_succ hs (ih hrun), List.append_assoc]
    | fault r => simp [controllerAloneRun, hs] at hm
    | refused r => simp [controllerAloneRun, hs] at hm

/-- The controller block at `C_VALIDATE`, after an exchange that brought the bytes `b`. -/
def Ctrl.exchanged (o : ByteOrder) (b : Bytes4) (c : Ctrl) : Ctrl :=
  { c.begin with cTxp := requestWord c.phase, cRxp := (deser o b).word, sel := false, cstep := .validate }

/-- Six micro-steps make up an exchange. -/
theorem Ctrl.exchanged_eq (o : ByteOrder) (c : Ctrl) :
    (c.build.selected.sent.settled.received o b).deselected = c.exchanged o b := by
  cases c
  rfl

/-- From `C_BUILD`, six micro-steps are one exchange (R131 to R135, R140). -/
theorem controllerAloneRun_exchange (hr : s.ctrl.rstN = true) (hc : s.ctrl.cstep = .build) :
    controllerAloneRun b 6 s =
      some ({ s with ctrl := s.ctrl.exchanged s.params.cOrder b }, exchangeOps s.params.cOrder s.ctrl.phase) := by
  rw [controllerAloneRun_succ (controllerAlone_build hc) <|
    controllerAloneRun_succ (controllerAlone_select rfl) <|
    controllerAloneRun_succ (controllerAlone_send rfl) <|
    controllerAloneRun_succ (controllerAlone_settle rfl) <|
    controllerAloneRun_succ (controllerAlone_recv rfl) <|
    controllerAloneRun_succ (controllerAlone_deselect rfl) rfl]
  simp [← Ctrl.exchanged_eq, Ctrl.op, exchangeOps, hr, hc, Ctrl.txBytes, requestWord, framedWord, packetOf_word]

/-- The micro-step `C_VALIDATE` judges the received word as `ctrlJudge` does (R136 to R139). -/
theorem controllerAlone_judge (hc : s.ctrl.cstep = .validate) :
    ∃ c : Ctrl, ∃ evs : List Event, controllerAlone b s = .next { s with ctrl := c } ∧ c.cstep = .post ∧
      c.rstN = s.ctrl.rstN ∧ c.sel = s.ctrl.sel ∧ c.out.log = s.ctrl.out.log ++ evs ∧
      ctrlJudge s.params.retryW s.ctrl.phase s.ctrl.cRetry (packetOf s.ctrl.cRxp) = (c.phase, c.cRetry, evs) := by
  rw [controllerAlone_validate hc]
  rcases exec_response_cases s.ctrl.cRxp s with ⟨hf, e⟩ | ⟨hf, he, e⟩ | ⟨hf, he, e⟩
  · exact ⟨_, _, e, rfl, rfl, rfl, rfl, ctrlJudge_of_frameError hf _ _ _⟩
  · refine ⟨_, _, e, rfl, Ctrl.accept_rstN _ _, Ctrl.accept_sel _ _, Ctrl.accept_log _ _, ?_⟩
    rw [ctrlJudge_of_expected hf he, Ctrl.goto_phase, Ctrl.accept_phase, Ctrl.goto_cRetry, Ctrl.accept_cRetry]
    rfl
  · exact ⟨_, _, e, rfl, rfl, rfl, rfl, ctrlJudge_of_mismatch hf he _ _⟩

/-- From `C_BUILD`, seven micro-steps lead to `C_POST`, with the response judged (R150). -/
theorem controllerAloneRun_judge (hr : s.ctrl.rstN = true) (hc : s.ctrl.cstep = .build) :
    ∃ c : Ctrl, ∃ evs : List Event,
      controllerAloneRun b 7 s = some ({ s with ctrl := c }, exchangeOps s.params.cOrder s.ctrl.phase) ∧
      c.cstep = .post ∧ c.rstN = true ∧ c.sel = false ∧ c.out.log = s.ctrl.out.log ++ evs ∧
      ctrlJudge s.params.retryW s.ctrl.phase s.ctrl.cRetry (deser s.params.cOrder b) = (c.phase, c.cRetry, evs) := by
  obtain ⟨c, evs, hjudge, hpost, hrst, hsel, hlog, hres⟩ :=
    controllerAlone_judge (b := b) (s := { s with ctrl := s.ctrl.exchanged s.params.cOrder b }) rfl
  refine ⟨c, evs, ?_, hpost, hrst.trans hr, hsel, hlog, ?_⟩
  · rw [controllerAloneRun_add (n := 1) (controllerAloneRun_exchange hr hc) (controllerAloneRun_succ hjudge rfl)]
    simp [Ctrl.op, Ctrl.exchanged, hr]
  · rwa [← packetOf_word (deser s.params.cOrder b)]

/-- From `C_POST`, with the budget not spent, two micro-steps lead to `C_BUILD` (R141, R143). -/
theorem controllerAloneRun_post (hr : s.ctrl.rstN = true) (hc : s.ctrl.cstep = .post) (hs : ¬5 < s.ctrl.cRetry) :
    controllerAloneRun b 2 s = some ({ s with ctrl := (s.ctrl.begin.goto .sleep).slept }, [.wait .cycle]) := by
  rw [controllerAloneRun_succ ((controllerAlone_post hc).trans (by rw [Ctrl.posted_of_not_spent hs])) <|
    controllerAloneRun_succ (controllerAlone_sleep rfl) rfl]
  simp [Ctrl.op, hr, hc]

/-- From `C_POST`, with the budget spent, three micro-steps lead to `C_BUILD` (R141, R142, R143). -/
theorem controllerAloneRun_recover (hr : s.ctrl.rstN = true) (hc : s.ctrl.cstep = .post) (hs : 5 < s.ctrl.cRetry) :
    controllerAloneRun b 3 s =
      some ({ s with ctrl := (s.ctrl.begin.recover.goto .reset).wasReset.slept }, [.reset, .wait .cycle]) := by
  rw [controllerAloneRun_succ ((controllerAlone_post hc).trans (by rw [Ctrl.posted_of_spent hs])) <|
    controllerAloneRun_succ (controllerAlone_reset rfl) <|
    controllerAloneRun_succ (controllerAlone_sleep rfl) rfl]
  simp [Ctrl.op, hr, hc]

end

/-- Settles O35: seven micro-steps up to `C_POST`, and the two or three from there on. -/
theorem controllerCycleIsItsMicroSteps : Obligations.ControllerCycleIsItsMicroSteps := by
  intro s b hr hc
  obtain ⟨c, evs, hrun, hpost, hrst, hsel, hlog, hres⟩ := controllerAloneRun_judge (b := b) hr hc
  dsimp only
  by_cases hs : 5 < c.cRetry
  · have hend := controllerAloneRun_recover (b := b) (s := { s with ctrl := c }) hrst hpost hs
    rw [ctrlCycle_of_spent hres hs]
    exact ⟨10, _, le_rfl, controllerAloneRun_add hrun hend, by simp [hlog, hsel]⟩
  · have hend := controllerAloneRun_post (b := b) (s := { s with ctrl := c }) hrst hpost hs
    rw [ctrlCycle_of_not_spent hres hs]
    exact ⟨9, _, by decide, controllerAloneRun_add hrun hend, by simp [hlog, hsel]⟩

/-! ### Six failures in a row -/

/-- A response fails by its header, or by a payload its phase does not expect (R152). -/
theorem failsIn_iff (o : ByteOrder) (ph : Phase) (b : Bytes4) :
    failsIn o ph b = true ↔ (deser o b).header ≠ 0xC819#16 ∨ ¬expected ph (deser o b).payload := by
  cases ph <;> simp [failsIn, expected, Config.sentinel, Config.idConst, Config.unitConst]

/-- A failing response stays in its phase and is counted, whichever way it fails (R136, R137, R138). -/
theorem ctrlJudge_of_fails {o : ByteOrder} {ph : Phase} {b : Bytes4} (h : failsIn o ph b = true) (w retry : Nat) :
    ∃ evs, ctrlJudge w ph retry (deser o b) = (ph, satInc w retry, evs) := by
  by_cases hf : (deser o b).header = 0xC819#16
  · have he : ¬expected ph (deser o b).payload := ((failsIn_iff o ph b).1 h).resolve_left (not_not_intro hf)
    exact ⟨_, ctrlJudge_of_mismatch hf he w retry⟩
  · exact ⟨_, ctrlJudge_of_frameError hf w ph retry⟩

section
variable {w : Nat} {o : ByteOrder} {ph : Phase} {b : Bytes4}

/-- A failing cycle below the threshold (R152). -/
theorem ctrlCycle_of_fails (hw : 5 ≤ w) (h : failsIn o ph b = true) {count : Nat} (hc : count < 5) :
    ∃ evs, ctrlCycle w o ph count b = ⟨ph, count + 1, evs, exchangeOps o ph ++ [.wait .cycle]⟩ := by
  obtain ⟨evs, hj⟩ := ctrlJudge_of_fails h w count
  rw [satInc_eq hw (by omega)] at hj
  exact ⟨evs, ctrlCycle_of_not_spent hj (by omega)⟩

/-- A failing cycle at the threshold (R152). -/
theorem ctrlCycle_of_sixth_failure (hw : 5 ≤ w) (h : failsIn o ph b = true) :
    ∃ evs, ctrlCycle w o ph 5 b =
      ⟨.detectDevice, 0, evs, exchangeOps o ph ++ [.reset] ++ [.wait .cycle]⟩ := by
  obtain ⟨evs, hj⟩ := ctrlJudge_of_fails h w 5
  rw [satInc_eq hw (by decide)] at hj
  exact ⟨_, ctrlCycle_of_spent hj (by decide)⟩

/-- A cycle that does not fail (R152). -/
theorem ctrlCycle_of_succeeds (h : failsIn o ph b = false) (w count : Nat) :
    ctrlCycle w o ph count b =
      ⟨nextPhase ph, 0, acceptEvents ph (deser o b).payload, exchangeOps o ph ++ [.wait .cycle]⟩ := by
  obtain ⟨hf, he⟩ : (deser o b).header = 0xC819#16 ∧ expected ph (deser o b).payload := by
    simpa [failsIn_iff] using mt (failsIn_iff o ph b).2 (by simp [h])
  exact ctrlCycle_of_not_spent (ctrlJudge_of_expected hf he w count) (by decide)

end

/-- Settles O36: the five cycles below the threshold, the sixth at it, and a cycle that succeeds. -/
theorem sixFailuresInARowReset : Obligations.SixFailuresInARowReset := by
  constructor
  · intro w o ph bs hw hlen hfails
    obtain ⟨b0, b1, b2, b3, b4, b5, rfl⟩ : ∃ b0 b1 b2 b3 b4 b5, bs = [b0, b1, b2, b3, b4, b5] := by
      match bs, hlen with
      | [b0, b1, b2, b3, b4, b5], _ => exact ⟨b0, b1, b2, b3, b4, b5, rfl⟩
    obtain ⟨_, h0⟩ := ctrlCycle_of_fails hw (hfails b0 (by simp)) (count := 0) (by decide)
    obtain ⟨_, h1⟩ := ctrlCycle_of_fails hw (hfails b1 (by simp)) (count := 1) (by decide)
    obtain ⟨_, h2⟩ := ctrlCycle_of_fails hw (hfails b2 (by simp)) (count := 2) (by decide)
    obtain ⟨_, h3⟩ := ctrlCycle_of_fails hw (hfails b3 (by simp)) (count := 3) (by decide)
    obtain ⟨_, h4⟩ := ctrlCycle_of_fails hw (hfails b4 (by simp)) (count := 4) (by decide)
    obtain ⟨_, h5⟩ := ctrlCycle_of_sixth_failure hw (hfails b5 (by simp))
    simp [ctrlTrace, h0, h1, h2, h3, h4, h5, exchangeOps]
  · intro w o ph count b h
    rw [ctrlCycle_of_succeeds h]
    exact ⟨rfl, rfl⟩

end Sys2Proof.Machine

namespace Sys2Proof.Machine

/-! ### The bytes of a `receive` -/

/-- Four bytes alone hold one packet at most (R266). -/
theorem noPacketIn_toList (o : ByteOrder) (b : Bytes4) : noPacketIn o b.toList = !framed (deser o b).word := by
  simp [noPacketIn, Bytes4.toList]

/-- What comes upstream where a reply is queued: its next byte (R265). -/
theorem upstream_of_queued {l : Link} {u : Byte} {us : List Byte} (he : l.outEn = true) (ho : l.outFifo = u :: us)
    (ok : DrawRule) (n : Inputs) : upstream ok l n = (u, { l with outFifo := us }, n) := by
  simp [upstream, he, ho]

/-- What comes upstream where nothing can be clocked out: an underflow byte (R265, R266). -/
theorem upstream_of_silent {l : Link} (h : l.outEn = false ∨ l.outFifo = []) (ok : DrawRule) (n : Inputs) :
    upstream ok l n = (n.underflow ok, l, n.dropUnderflow (n.underflow ok)) := by
  unfold upstream
  rcases h with h | h <;> simp [h]

/-- A link after the beats of a `receive` that drove the fill bytes `ds`, and whose transfer has come to `x`. -/
def Link.afterReceive (ds : List Byte) (x : Xfer) (l : Link) : Link :=
  { l with
    inFifo := if l.inEn then l.inFifo ++ ds else l.inFifo
    outFifo := if l.outEn then l.outFifo.drop ds.length else l.outFifo
    xfer := x }

/-- With buffering off, or room for a byte, a beat loses nothing. -/
theorem Link.afterBeat_eq_afterReceive {depth : Nat} {d : Byte} {x : Xfer} {l : Link}
    (h : l.inEn = true → l.inFifo.length < depth) : l.afterBeat depth d x = l.afterReceive [d] x := by
  cases hi : l.inEn with
  | false => simp [Link.afterBeat, Link.afterReceive, hi]
  | true => simp [Link.afterBeat, Link.afterReceive, hi, h hi]

/-- The beats of a `receive` follow one another. -/
theorem Link.afterReceive_afterReceive (ds es : List Byte) (x y : Xfer) (l : Link) :
    (l.afterReceive ds x).afterReceive es y = l.afterReceive (ds ++ es) y := by
  unfold Link.afterReceive
  cases l.inEn <;> cases l.outEn <;> simp

theorem Link.afterReceive_nil {x : Xfer} {l : Link} (h : l.xfer = x) : l.afterReceive [] x = l := by
  subst h
  simp [Link.afterReceive]

/-- A beat of a `receive` where a reply is queued: it brings the next byte of the reply (R265). -/
theorem beatOn_receiving_of_queued {p : Params} {acc us : List Byte} {u : Byte} {l : Link} {n : Inputs}
    (hroom : l.inEn = true → l.inFifo.length < p.inDepth) (he : l.outEn = true) (ho : l.outFifo = u :: us) :
    beatOn p (.receiving acc) l n =
      (l.afterReceive [n.fill p.fillOk] (.recv (acc ++ [u])), n.dropFill (n.fill p.fillOk)) := by
  have hlink := beatOn_receiving p acc l n
  rw [if_pos he, ho, List.headD_cons] at hlink
  refine Prod.ext (hlink.trans ?_) ?_
  · rw [← Link.afterBeat_eq_afterReceive hroom]
    simp [Link.afterBeat, he, ho]
  · simp [beatOn, upstream_of_queued he ho]

/-- A beat of a `receive` where nothing can be clocked out: it brings an underflow byte (R265, R266). -/
theorem beatOn_receiving_of_silent {p : Params} {acc : List Byte} {l : Link} {n : Inputs}
    (hroom : l.inEn = true → l.inFifo.length < p.inDepth) (h : l.outEn = false ∨ l.outFifo = []) :
    beatOn p (.receiving acc) l n =
      (l.afterReceive [n.fill p.fillOk] (.recv (acc ++ [n.underflow p.underflowOk])),
        (n.dropUnderflow (n.underflow p.underflowOk)).dropFill (n.fill p.fillOk)) := by
  have hlink := beatOn_receiving p acc l n
  have hout : (if l.outEn then l.outFifo.headD (n.underflow p.underflowOk) else n.underflow p.underflowOk) =
      n.underflow p.underflowOk := by
    rcases h with h | h <;> simp [h]
  rw [hout] at hlink
  refine Prod.ext (hlink.trans ?_) ?_
  · rw [← Link.afterBeat_eq_afterReceive hroom]
    rfl
  · simp [beatOn, upstream_of_silent h]

/-- What a `receive` has brought and what is still queued make up the reply (R345). -/
def Replying (reply : Bytes4) (acc : List Byte) (l : Link) : Prop :=
  l.outEn = true ∧ acc ++ l.outFifo = reply.toList

/-- Nothing can be clocked out, and what a `receive` has brought are the underflow bytes of its transfer (R266). -/
structure Underflowing (ok : DrawRule) (acc : List Byte) (l : Link) (n : Inputs) : Prop where
  silent : l.outEn = false ∨ l.outFifo = []
  drawn : acc ≠ [] → n.underflowsDrawn.now = acc
  allowed : ok.allows acc = true

/-- The first beat of a transfer begins a new group, so the group holds what the transfer has drawn. -/
theorem Underflowing.begun {ok : DrawRule} {acc : List Byte} {l : Link} {n : Inputs} (h : Underflowing ok acc l n) :
    (n.beginBeat acc.isEmpty).underflowsDrawn.now = acc := by
  cases acc with
  | nil => rfl
  | cons b acc => exact h.drawn (List.cons_ne_nil _ _)

/-- `t` is `s` after the beats of a `receive` that brought `us` behind `acc` (R264, R265). -/
structure Received (acc us : List Byte) (s t : State) : Prop where
  params : t.params = s.params
  ctrl : t.ctrl = s.ctrl
  per : t.per = s.per
  link : ∃ ds : List Byte, t.link = s.link.afterReceive ds (.recv (acc ++ us)) ∧ ds.length = us.length
  reply : ∀ reply, Replying reply acc s.link → Replying reply (acc ++ us) t.link
  underflow : Underflowing s.params.underflowOk acc s.link s.inputs →
    Underflowing s.params.underflowOk (acc ++ us) t.link t.inputs

/-- A `receive` has brought `acc`, and its `k` beats more lose no fill byte (R264, R265). -/
structure Receiving (acc : List Byte) (k : Nat) (s : State) : Prop where
  rstN : s.ctrl.rstN = true
  overrun : s.link.overrun = false
  selW : s.link.selW = true
  xfer : s.link.xfer = .recv acc
  beats : acc.length + k = 4
  room : s.link.inEn = true → s.link.inFifo.length + k ≤ s.params.inDepth

section
variable {s t u : State} {acc us vs : List Byte}

theorem Received.refl (h : s.link.xfer = .recv acc) : Received acc [] s s where
  params := rfl
  ctrl := rfl
  per := rfl
  link := ⟨[], (Link.afterReceive_nil (by rw [List.append_nil, h])).symm, rfl⟩
  reply _ h := by rwa [List.append_nil]
  underflow h := by rwa [List.append_nil]

theorem Received.trans (h : Received acc us s t) (h' : Received (acc ++ us) vs t u) :
    Received acc (us ++ vs) s u where
  params := h'.params.trans h.params
  ctrl := h'.ctrl.trans h.ctrl
  per := h'.per.trans h.per
  link := by
    obtain ⟨ds, hl, hd⟩ := h.link
    obtain ⟨es, hl', he⟩ := h'.link
    refine ⟨ds ++ es, ?_, by simp [hd, he]⟩
    rw [hl', hl, Link.afterReceive_afterReceive, List.append_assoc]
  reply r hr := by
    rw [← List.append_assoc]
    exact h'.reply r (h.reply r hr)
  underflow hu := by
    rw [← List.append_assoc, ← h.params]
    exact h'.underflow (by rw [h.params]; exact h.underflow hu)

/-- A beat of a `receive`, whatever comes upstream (R265). -/
theorem wireStep_receiving (hw : s.link.selW = true) (hx : s.link.xfer = .recv acc) (hl : acc.length < 4) :
    wireStep s = .next { s with
      link := (beatOn s.params (.receiving acc) s.link (s.inputs.beginBeat acc.isEmpty)).1
      inputs := (beatOn s.params (.receiving acc) s.link (s.inputs.beginBeat acc.isEmpty)).2 } := by
  have hk : s.link.beatKind = some (.receiving acc) := by simp [Link.beatKind, hw, hx, Config.pktBytes, hl]
  simp [wireStep, hk]

theorem Receiving.room_for_one {k : Nat} (h : Receiving acc (k + 1) s) (hi : s.link.inEn = true) :
    s.link.inFifo.length < s.params.inDepth := by
  have := h.room hi
  omega

theorem Receiving.short {k : Nat} (h : Receiving acc (k + 1) s) : acc.length < 4 := by
  have := h.beats
  omega

/-- Where a reply is queued, the wire's turn brings its next byte. -/
theorem Receiving.wireStep_queued {k : Nat} {b : Byte} (h : Receiving acc (k + 1) s) (he : s.link.outEn = true)
    (ho : s.link.outFifo = b :: us) :
    ∃ t, wireStep s = .next t ∧ t.inputs.sched = s.inputs.sched ∧ Received acc [b] s t := by
  rw [wireStep_receiving h.selW h.xfer h.short, beatOn_receiving_of_queued h.room_for_one he ho]
  exact ⟨_, rfl, rfl, {
    params := rfl
    ctrl := rfl
    per := rfl
    link := ⟨_, rfl, rfl⟩
    reply := fun r hr => ⟨he, by simpa [Link.afterReceive, he, ho] using hr.2⟩
    underflow := fun hu => by simpa [he, ho] using hu.silent }⟩

/-- Where nothing can be clocked out, the wire's turn brings an underflow byte. -/
theorem Receiving.wireStep_silent {k : Nat} (h : Receiving acc (k + 1) s)
    (hs : s.link.outEn = false ∨ s.link.outFifo = []) :
    ∃ t, wireStep s = .next t ∧ t.inputs.sched = s.inputs.sched ∧
      Received acc [(s.inputs.beginBeat acc.isEmpty).underflow s.params.underflowOk] s t := by
  rw [wireStep_receiving h.selW h.xfer h.short, beatOn_receiving_of_silent h.room_for_one hs]
  exact ⟨_, rfl, rfl, {
    params := rfl
    ctrl := rfl
    per := rfl
    link := ⟨_, rfl, rfl⟩
    reply := fun r ⟨he, hr⟩ => by
      have hlen : acc.length = 4 := by
        rw [← r.length_toList, ← hr, hs.resolve_left (by simp [he]), List.append_nil]
      exact absurd hlen h.short.ne
    underflow := fun hu => {
      silent := by rcases hs with hs | hs <;> simp [Link.afterReceive, hs]
      drawn := fun _ => congrArg (· ++ [_]) hu.begun
      allowed := by
        rw [Inputs.underflow, hu.begun]
        exact DrawRule.allows_draw hu.allowed _ } }⟩

/-- The wire's turn brings a byte, of the reply or underflow. -/
theorem Receiving.step_next {k : Nat} (h : Receiving acc (k + 1) s) (ht : s.inputs.turn = .wire) :
    ∃ t b, step s = .next t ∧ t.inputs.sched = s.inputs.sched.tail ∧ Received acc [b] s t := by
  have hrun : Running .wire s := ⟨h.overrun, ht, by simp [State.free, h.rstN]⟩
  have hadv : Receiving acc (k + 1) s.advance := ⟨h.rstN, h.overrun, h.selW, h.xfer, h.beats, h.room⟩
  have received_of_advance {t : State} {b : Byte} (hr : Received acc [b] s.advance t) : Received acc [b] s t :=
    ⟨hr.params, hr.ctrl, hr.per, hr.link, hr.reply, fun hu => hr.underflow ⟨hu.silent, hu.drawn, hu.allowed⟩⟩
  rw [step_wire hrun]
  by_cases hs : s.link.outEn = false ∨ s.link.outFifo = []
  · obtain ⟨t, hstep, hn, hr⟩ := hadv.wireStep_silent hs
    exact ⟨t, _, hstep, hn, received_of_advance hr⟩
  · obtain ⟨he, ho⟩ := not_or.1 hs
    obtain ⟨b, us, ho⟩ := List.exists_cons_of_ne_nil ho
    obtain ⟨t, hstep, hn, hr⟩ := hadv.wireStep_queued (by simpa using he) ho
    exact ⟨t, b, hstep, hn, received_of_advance hr⟩

/-- After a byte there is one beat less to do. -/
theorem Receiving.received {k : Nat} {b : Byte} (h : Receiving acc (k + 1) s) (hr : Received acc [b] s t) :
    Receiving (acc ++ [b]) k t := by
  obtain ⟨ds, hl, hd⟩ := hr.link
  refine ⟨by rw [hr.ctrl, h.rstN], by rw [hl]; exact h.overrun, by rw [hl]; exact h.selW, by rw [hl]; rfl, ?_, ?_⟩
  · have := h.beats
    simp only [List.length_append, List.length_singleton]
    omega
  · intro hi
    rw [hl] at hi ⊢
    have hi : s.link.inEn = true := hi
    have := h.room hi
    simp only [Link.afterReceive, hi, if_true, List.length_append, hd, hr.params, List.length_singleton]
    omega

/-- The beats that remain of a `receive` bring as many bytes (R264, R265). -/
theorem Receiving.stepN_next {rest : List Agent} (k : Nat) {s : State} {acc : List Byte} (h : Receiving acc k s)
    (hsched : s.inputs.sched = List.replicate k .wire ++ rest) :
    ∃ t us, us.length = k ∧ stepN k s = .next t ∧ t.inputs.sched = rest ∧ Received acc us s t := by
  induction k generalizing s acc with
  | zero => exact ⟨s, [], rfl, rfl, hsched, Received.refl h.xfer⟩
  | succ k ih =>
    obtain ⟨u, b, hstep, hn, hr⟩ := h.step_next (Inputs.turn_of_sched hsched)
    obtain ⟨t, us, hus, hrun, hn', hr'⟩ := ih (h.received hr) (by rw [hn, hsched]; rfl)
    exact ⟨t, b :: us, by simp [hus], (stepN_succ_of_next k hstep).trans hrun, hn', hr.trans hr'⟩

/-- The issue of a `receive` (R264). -/
theorem controllerStep_issueRecv (hc : s.ctrl.cstep = .recv) (hx : s.link.xfer = .idle) :
    controllerStep s = .next { s with ctrl := s.ctrl.begin, link := s.link.issueRecv } := by
  rw [controllerStep_recv hc]
  simp [controllerRecv, hx, State.ctrlLink]

/-- Four bytes in a list are the bytes of a packet. -/
theorem exists_eq_toList {l : List Byte} (h : l.length = 4) : ∃ b : Bytes4, l = b.toList :=
  match l, h with
  | [b0, b1, b2, b3], _ => ⟨⟨b0, b1, b2, b3⟩, rfl⟩

/-- A whole `receive`: issue, four beats, and the completion with the bytes they brought (R135, R214, R264). -/
theorem stepN_receive {rest : List Agent} (hrun : Running .controller s) (hc : s.ctrl.cstep = .recv)
    (hx : s.link.xfer = .idle) (hw : s.link.selW = true)
    (hroom : s.link.inEn = true → s.link.inFifo.length + 4 ≤ s.params.inDepth)
    (hsched : s.inputs.sched = [.controller, .wire, .wire, .wire, .wire, .controller] ++ rest) :
    ∃ (t : State) (b fill : Bytes4), stepN 6 s = .next t ∧ t.ctrl = s.ctrl.received s.params.cOrder b ∧
      t.per = s.per ∧ t.params = s.params ∧ t.inputs.sched = rest ∧ t.link = s.link.afterReceive fill.toList .idle ∧
      (∀ reply, ReplyReady reply s → b = reply) ∧
      (s.link.outEn = false ∨ s.link.outFifo = [] →
        t.inputs.underflowsDrawn.now = b.toList ∧ s.params.underflowOk.allows b.toList = true) := by
  have hissue := (step_controller hrun).trans (controllerStep_issueRecv hc hx)
  obtain ⟨ho, -, hr⟩ := hrun
  have hissued : Receiving [] 4 { s.advance with ctrl := s.ctrl.begin, link := s.link.issueRecv } :=
    ⟨hr, ho, hw, rfl, rfl, hroom⟩
  obtain ⟨t, us, hus, hbeats, hn, hrec⟩ :=
    hissued.stepN_next (rest := .controller :: rest) 4 (congrArg List.tail hsched)
  obtain ⟨b, rfl⟩ := exists_eq_toList hus
  obtain ⟨ds, hl, hd⟩ := hrec.link
  obtain ⟨fill, rfl⟩ := exists_eq_toList hd
  have hend : Running .controller t := ⟨by rw [hl]; exact ho, Inputs.turn_of_sched hn, by
    rw [State.free, hrec.ctrl]
    exact hr⟩
  have hdone := (step_controller hend).trans
    (controllerStep_received (s := t.advance) (b := b) (by rw [State.advance_ctrl, hrec.ctrl]; exact hc)
      (by rw [State.advance_link, hl]; rfl))
  refine ⟨_, b, fill, (stepN_succ_of_next 5 hissue).trans
    ((stepN_add_of_next 1 hbeats).trans (stepN_one_of_next hdone)), ?_, hrec.per, hrec.params,
    congrArg List.tail hn, by simp only [State.advance_link, hl]; rfl, fun reply ⟨he, hq⟩ => ?_, fun hs => ?_⟩
  · simp only [State.advance_ctrl, State.advance_params, hrec.ctrl, hrec.params]
    rfl
  · obtain ⟨-, hbytes⟩ := hrec.reply reply ⟨he, hq⟩
    have htake := takeBytes4_append b t.link.outFifo
    rw [show b.toList ++ t.link.outFifo = reply.toList from hbytes, takeBytes4_toList] at htake
    exact (Prod.mk.inj (Option.some.inj htake)).1.symm
  · have hu := hrec.underflow ⟨hs, fun h => absurd rfl h, DrawRule.allows_nil _⟩
    exact ⟨hu.drawn (by simp [Bytes4.toList]), hu.allowed⟩

end

/-- Settles O34: `stepN_receive` with the reply queued, and with nothing to clock out. -/
theorem receiveReturnsTheQueuedReply : Obligations.ReceiveReturnsTheQueuedReply := by
  constructor
  · intro s reply rest hrun hc hx hw hready hroom hsched
    obtain ⟨t, b, fill, hsteps, hctrl, hper, hparams, hn, hl, hreply, -⟩ :=
      stepN_receive hrun hc hx hw hroom hsched
    obtain rfl := hreply reply hready
    obtain ⟨ho, -⟩ := hrun
    obtain ⟨he, hq⟩ := hready
    refine ⟨t, hsteps, hctrl, by rw [hctrl, Ctrl.received_cRxp], hper, hparams, hn, ?_⟩
    rw [hl]
    exact ⟨by simp [Link.afterReceive, he, hq], rfl, ho, fun hi => by simp [Link.afterReceive, hi],
      fun hi => ⟨fill, by simp [Link.afterReceive, hi]⟩⟩
  · intro s rest hrun hc hx hw hs hroom hsched
    obtain ⟨t, b, fill, hsteps, hctrl, -, -, -, hl, -, hunder⟩ := stepN_receive hrun hc hx hw hroom hsched
    obtain ⟨hnow, hallowed⟩ := hunder hs
    refine ⟨t, hsteps, b, hnow, hctrl, ?_, by rw [hl]; rfl, hallowed, fun hno => ?_⟩
    · rcases hs with hs | hs <;> simp [hl, Link.afterReceive, hs]
    · rw [hnow, noPacketIn_toList] at hno
      rw [hctrl, Ctrl.received_cRxp]
      simpa using hno

end Sys2Proof.Machine

namespace Sys2Proof.Machine

/-! ### The places of an exchange -/

/-- Where the controller stands in an exchange: its micro-step, and the beats a transfer in flight has done. `finished` is
the sleep that ends the exchange. -/
inductive CtrlPlace where
  | sleep | build | select | issue
  | sending (beats : Nat)
  | settle | ask
  | receiving (beats : Nat)
  | deselect | validate | post | finished

/-- Where the peripheral stands in an exchange: it polls until the request has come, takes and answers it, skips cycles
while the reply is queued, takes the fill bytes as one more packet, and polls again. -/
inductive PerPlace where
  | pollSleep | pollOut | pollIn
  | recv | disableIn | validate | sample | send | enableIn
  | skipSleep | skipOut
  | fillIn | fillRecv | fillDisable | fillValidate
  | fillEnable | doneSleep | doneOut | doneIn

/-- The micro-step at a place. -/
def CtrlPlace.cstep : CtrlPlace → CStep
  | .sleep | .finished => .sleep
  | .build => .build
  | .select => .select
  | .issue | .sending _ => .send
  | .settle => .settle
  | .ask | .receiving _ => .recv
  | .deselect => .deselect
  | .validate => .validate
  | .post => .post

/-- The micro-step at a place. -/
def PerPlace.pstep : PerPlace → PStep
  | .pollSleep | .skipSleep | .doneSleep => .sleep
  | .pollOut | .skipOut | .doneOut => .checkOut
  | .pollIn | .fillIn | .doneIn => .checkIn
  | .recv | .fillRecv => .recv
  | .disableIn | .fillDisable => .disableIn
  | .validate | .fillValidate => .validate
  | .sample => .sample
  | .send => .send
  | .enableIn | .fillEnable => .enableIn

/-- The bytes of the request that have gone out. -/
def CtrlPlace.sent : CtrlPlace → Nat
  | .sleep | .build | .select | .issue => 0
  | .sending i => i
  | _ => 4

/-- The bytes of the reply that have come in, which is also how many fill bytes have gone out. -/
def CtrlPlace.got : CtrlPlace → Nat
  | .receiving i => i
  | .deselect | .validate | .post | .finished => 4
  | _ => 0

/-- The stage of R275 the controller is in; the second lasts until the peripheral has answered. -/
def CtrlPlace.leg : CtrlPlace → TunedStage
  | .sleep | .build | .select | .issue | .sending _ => .send
  | .settle => .settle
  | .ask | .receiving _ => .receive
  | .deselect | .validate | .post | .finished => .rest

/-- The peripheral's cycle for the request is over. -/
def PerPlace.replied : PerPlace → Bool
  | .pollSleep | .pollOut | .pollIn | .recv | .disableIn | .validate | .sample | .send | .enableIn => false
  | _ => true

/-- The reply has been put into the outbound buffer. -/
def PerPlace.queued : PerPlace → Bool
  | .enableIn => true
  | p => p.replied

/-- The reply has been built, and any sample for it taken. -/
def PerPlace.answered : PerPlace → Bool
  | .send => true
  | p => p.queued

/-- The fill bytes have been counted as noise. -/
def PerPlace.recovered : PerPlace → Bool
  | .fillEnable | .doneSleep | .doneOut | .doneIn => true
  | _ => false

/-- Which places the two blocks may be at together. -/
def PerPlace.fits (g : TunedStage) : PerPlace → Bool
  | .pollSleep | .pollOut | .pollIn => g == .send || g == .settle
  | .recv | .disableIn | .validate | .sample | .send | .enableIn => g == .settle
  | .skipSleep | .skipOut => g != .send
  | _ => g == .rest

/-- The stage of R275 at two places. -/
def stageAt (c : CtrlPlace) (p : PerPlace) : TunedStage :=
  match c.leg with
  | .settle => if p.replied then .receive else .settle
  | g => g

/-- The controller's next place, where its step is one of the tuned schedule (R275). -/
def CtrlPlace.next (p : PerPlace) : CtrlPlace → Option CtrlPlace
  | .sleep => some .build
  | .build => some .select
  | .select => some .issue
  | .issue => some (.sending 0)
  | .sending i => if i = 4 then some .settle else none
  | .settle => if p.replied then some .ask else none
  | .ask => some (.receiving 0)
  | .receiving i => if i = 4 then some .deselect else none
  | .deselect => some .validate
  | .validate => some .post
  | .post => some .finished
  | .finished => none

/-- The controller's place after a beat, where the wire has one. -/
def CtrlPlace.beat : CtrlPlace → Option CtrlPlace
  | .sending i => if i < 4 then some (.sending (i + 1)) else none
  | .receiving i => if i < 4 then some (.receiving (i + 1)) else none
  | _ => none

/-- The peripheral's next place in the exchange of a phase, where its step is one of the tuned schedule (R275). -/
def PerPlace.next (ph : Phase) (c : CtrlPlace) : PerPlace → Option PerPlace
  | .pollSleep => some .pollOut
  | .pollOut => some .pollIn
  | .pollIn => if c.leg = .settle then some .recv else if c.sent < 4 then some .pollSleep else none
  | .recv => some .disableIn
  | .disableIn => some .validate
  | .validate => if ph = .readMeasurement then some .sample else some .send
  | .sample => some .send
  | .send => some .enableIn
  | .enableIn => some .skipSleep
  | .skipSleep => some .skipOut
  | .skipOut => if c.got < 4 then some .skipSleep else if c.leg = .rest then some .fillIn else none
  | .fillIn => some .fillRecv
  | .fillRecv => some .fillDisable
  | .fillDisable => some .fillValidate
  | .fillValidate => some .fillEnable
  | .fillEnable => some .doneSleep
  | .doneSleep => some .doneOut
  | .doneOut => some .doneIn
  | .doneIn => some .doneSleep

/-- Both places after a turn of the tuned schedule (R275). -/
def nextPlaces (ph : Phase) (a : Agent) (c : CtrlPlace) (p : PerPlace) : Option (CtrlPlace × PerPlace) :=
  match a with
  | .controller => (c.next p).map (·, p)
  | .wire => c.beat.map (·, p)
  | .peripheral => (p.next ph c).map (c, ·)
  | .platform _ _ => none

/-! ### The state at the places of an exchange -/

/-- The payload of the reply in a phase, where a sample is `v` (R178, R179, R180). -/
def replyPayload (v : Half) : Phase → Half
  | .detectDevice => Config.idConst
  | .readUnit => Config.unitConst
  | .readMeasurement => v

section
variable (q : State) (v : Half) (fs : List Byte)

/-- The bytes of the request in the exchange that begins at `q` (R131, R133). -/
def requestBytes : Bytes4 := ser q.params.pOrder (packetOf (requestWord q.ctrl.phase))

/-- The reply in the exchange that begins at `q`. -/
def replyWord : Word := framedWord (replyPayload v q.ctrl.phase)

/-- The bytes of the reply (R182). -/
def replyBytes : Bytes4 := ser q.params.pOrder (packetOf (replyWord q v))

/-- The transfer in flight at a place of the controller (R263, R264). -/
def CtrlPlace.xfer : CtrlPlace → Xfer
  | .sending i => .send (requestBytes q) i
  | .receiving i => .recv ((replyBytes q v).toList.take i)
  | _ => .idle

/-- What is pending inbound: what has come of the request, until it is taken, then of the fill bytes, until they are. -/
def PerPlace.inbound (c : CtrlPlace) : PerPlace → List Byte
  | .pollSleep | .pollOut | .pollIn | .recv => (requestBytes q).toList.take c.sent
  | .skipSleep | .skipOut | .fillIn | .fillRecv => fs
  | _ => []

/-- The link at the places of the two blocks. -/
def linkAt (c : CtrlPlace) (p : PerPlace) : Link :=
  { inFifo := p.inbound q fs c
    outFifo := if p.queued then (replyBytes q v).toList.drop c.got else []
    inEn := p.pstep.listening
    outEn := true
    selW := c.cstep.selected
    xfer := c.xfer q v
    overrun := false }

/-- The controller's phase and record before the response is judged. -/
def Unjudged (b : Ctrl) : Prop :=
  b.phase = q.ctrl.phase ∧ b.out.log = q.ctrl.out.log

/-- What the controller's registers hold at a place: the request from `C_BUILD` until it is sent, the reply from its
receipt on, and from `C_POST` on the success (R131, R135, R137 to R139). -/
def CtrlPlace.holds (b : Ctrl) : CtrlPlace → Prop
  | .sleep | .build | .settle | .ask | .receiving _ => Unjudged q b
  | .select | .issue | .sending _ => Unjudged q b ∧ b.cTxp = requestWord q.ctrl.phase
  | .deselect | .validate => Unjudged q b ∧ b.cRxp = replyWord q v
  | .post | .finished =>
      b.phase = nextPhase q.ctrl.phase ∧ b.cRetry = 0 ∧ b.cRxp = replyWord q v ∧
        b.out.log = q.ctrl.out.log ++ acceptEvents q.ctrl.phase v

/-- The peripheral has built the reply; in ReadMeasurement `v` is its sample (R178, R179, R180). -/
def Answered (b : Per) : Prop :=
  b.pRsp = replyWord q v ∧ (q.ctrl.phase = .readMeasurement → b.pSmp = v)

/-- What the peripheral's registers hold at a place: the request, then the reply with the count at zero (R176), then the
fill bytes, and from their validation on the count they bring (R177). -/
def PerPlace.holds (b : Per) : PerPlace → Prop
  | .pollSleep | .pollOut | .pollIn | .recv => b.out.log = q.per.out.log
  | .disableIn | .validate => b.out.log = q.per.out.log ∧ b.pReq = requestWord q.ctrl.phase
  | .sample => b.out.log = q.per.out.log ∧ b.pRetry = 0 ∧ q.ctrl.phase = .readMeasurement
  | .send | .enableIn | .skipSleep | .skipOut | .fillIn | .fillRecv =>
      b.out.log = q.per.out.log ∧ b.pRetry = 0 ∧ Answered q v b
  | .fillDisable | .fillValidate =>
      b.out.log = q.per.out.log ∧ b.pRetry = 0 ∧ Answered q v b ∧
        ∃ f : Bytes4, fs = f.toList ∧ b.pReq = (deser q.params.pOrder f).word
  | .fillEnable | .doneSleep | .doneOut | .doneIn =>
      b.pRetry = 1 ∧ Answered q v b ∧
        ∃ f : Bytes4, fs = f.toList ∧ b.out.log = q.per.out.log ++ [.eFrame (deser q.params.pOrder f).header]

/-- The controller block at a place. -/
structure CtrlAt (c : CtrlPlace) (b : Ctrl) : Prop where
  rstN : b.rstN = true
  cstep : b.cstep = c.cstep
  holds : c.holds q v b

/-- The peripheral block at a place. -/
structure PerAt (p : PerPlace) (b : Per) : Prop where
  rstN : b.rstN = true
  pstep : b.pstep = p.pstep
  holds : p.holds q v fs b

/-- The inputs once `fs` are the fill bytes drawn for the `receive`: what is left, and what was taken, of the samples
and the fill bytes that `q` offers. -/
structure InputsAt (got : Nat) (answered : Bool) (n : Inputs) : Prop where
  length : fs.length = got
  bound : got ≤ 4
  now : 0 < got → n.fillsDrawn.now = fs
  fills : ∀ (f : Bytes4) (rest : List Byte), q.inputs.fills = f.toList ++ rest →
    q.params.fillOk.allows f.toList = true → fs ++ n.fills = f.toList ++ rest
  samples : answered = false → n.samples = q.inputs.samples
  sample : answered = true → q.ctrl.phase = .readMeasurement →
    ∀ w ws, q.inputs.samples = w :: ws → v = w

/-- The state `s`, at two places of the exchange that begins at `q`, with `v` the sample, if one is asked for, and `fs`
the fill bytes of the `receive` so far. -/
structure ExchangeAt (c : CtrlPlace) (p : PerPlace) (s : State) : Prop where
  params : s.params = q.params
  ctrl : CtrlAt q v c s.ctrl
  per : PerAt q v fs p s.per
  link : s.link = linkAt q v fs c p
  inputs : InputsAt q v fs c.got p.answered s.inputs
  fits : p.fits c.leg = true

end

section
variable {q s t : State} {v : Half} {fs : List Byte} {c c' : CtrlPlace} {p p' : PerPlace}

theorem InputsAt.advance {got : Nat} {answered : Bool} {n : Inputs} (h : InputsAt q v fs got answered n) :
    InputsAt q v fs got answered n.advance :=
  ⟨h.length, h.bound, h.now, h.fills, h.samples, h.sample⟩

/-- A turn that passes leaves the exchange where it is. -/
theorem ExchangeAt.advance (h : ExchangeAt q v fs c p s) : ExchangeAt q v fs c p s.advance :=
  ⟨h.params, h.ctrl, h.per, h.link, h.inputs.advance, h.fits⟩

/-! ### The controller's steps -/

theorem expected_replyPayload (v : Half) (ph : Phase) : expected ph (replyPayload v ph) := by
  cases ph with
  | detectDevice => rfl
  | readUnit => rfl
  | readMeasurement => trivial

theorem acceptEvents_replyPayload (v : Half) (ph : Phase) :
    acceptEvents ph (replyPayload v ph) = acceptEvents ph v := by
  cases ph <;> rfl

/-- The word the controller receives is the one the peripheral built (R104, R105). -/
theorem deser_replyBytes (ho : q.params.cOrder = q.params.pOrder) :
    (deser q.params.cOrder (replyBytes q v)).word = replyWord q v := by
  rw [ho, replyBytes, deser_ser, word_packetOf]

/-- At `C_VALIDATE` with the phase's reply in `c_rxp`, the step is the success (R137, R138, R139). -/
theorem controllerStep_accept (hc : s.ctrl.cstep = .validate) (hp : s.ctrl.phase = q.ctrl.phase)
    (hx : s.ctrl.cRxp = replyWord q v) :
    controllerStep s = .next { s with
      ctrl := (s.ctrl.begin.accept (replyPayload v q.ctrl.phase)).goto .post } := by
  have hh : headerOf s.ctrl.cRxp = 0xC819#16 := by rw [hx]; exact headerOf_word _
  have hpay : payloadOf s.ctrl.cRxp = replyPayload v q.ctrl.phase := by rw [hx]; exact payloadOf_word _
  have he : expected s.ctrl.phase (payloadOf s.ctrl.cRxp) := by rw [hp, hpay]; exact expected_replyPayload _ _
  rw [controllerStep_validate hc]
  rcases exec_response_cases s.ctrl.cRxp s with ⟨hf, -⟩ | ⟨-, -, e⟩ | ⟨-, hne, -⟩
  · exact absurd hh hf
  · rw [e, hpay]
  · exact absurd he hne

theorem PerPlace.fits_settle (h : p.fits .send = true) : p.fits .settle = true := by
  revert h
  cases p <;> decide

theorem PerPlace.fits_receive (hp : p.replied = true) (h : p.fits .settle = true) : p.fits .receive = true := by
  revert hp h
  cases p <;> decide

theorem PerPlace.fits_rest (h : p.fits .receive = true) : p.fits .rest = true := by
  revert h
  cases p <;> decide

/-- The controller's step leads to its next place. -/
theorem ExchangeAt.controllerStep_next (ho : q.params.cOrder = q.params.pOrder) (h : ExchangeAt q v fs c p s)
    (hn : c.next p = some c') :
    ∃ t, controllerStep s = .next t ∧ t.inputs = s.inputs ∧ ExchangeAt q v fs c' p t := by
  obtain ⟨hparams, ⟨hr, hc, hh⟩, hper, hl, hin, hfits⟩ := h
  cases c with
  | sleep =>
    obtain rfl := Option.some.inj hn
    exact ⟨_, controllerStep_sleep hc, rfl, hparams, ⟨hr, rfl, hh⟩, hper, hl, hin, hfits⟩
  | build =>
    obtain rfl := Option.some.inj hn
    exact ⟨_, controllerStep_build hc, rfl, hparams, ⟨hr, rfl, hh, by rw [Ctrl.build_cTxp, hh.1]⟩, hper, hl, hin, hfits⟩
  | select =>
    obtain rfl := Option.some.inj hn
    exact ⟨_, controllerStep_select hc, rfl, hparams, ⟨hr, rfl, hh⟩, hper, by rw [hl]; rfl, hin, hfits⟩
  | issue =>
    obtain rfl := Option.some.inj hn
    refine ⟨_, controllerStep_issueSend hc (by rw [hl]; rfl), rfl, hparams, ⟨hr, hc, hh⟩, hper, ?_, hin, hfits⟩
    rw [hl, Ctrl.txBytes, hh.2, hparams, ho]
    rfl
  | sending i =>
    obtain ⟨rfl, rfl⟩ : i = 4 ∧ CtrlPlace.settle = c' := by simpa [CtrlPlace.next] using hn
    exact ⟨_, controllerStep_sent hc (by rw [hl]; rfl), rfl, hparams, ⟨hr, rfl, hh.1⟩, hper, by rw [hl]; rfl, hin,
      PerPlace.fits_settle hfits⟩
  | settle =>
    obtain ⟨hp, rfl⟩ : p.replied = true ∧ CtrlPlace.ask = c' := by simpa [CtrlPlace.next] using hn
    exact ⟨_, controllerStep_settle hc, rfl, hparams, ⟨hr, rfl, hh⟩, hper, hl, hin, PerPlace.fits_receive hp hfits⟩
  | ask =>
    obtain rfl := Option.some.inj hn
    exact ⟨_, controllerStep_issueRecv hc (by rw [hl]; rfl), rfl, hparams, ⟨hr, hc, hh⟩, hper, by rw [hl]; rfl, hin,
      hfits⟩
  | receiving i =>
    obtain ⟨rfl, rfl⟩ : i = 4 ∧ CtrlPlace.deselect = c' := by simpa [CtrlPlace.next] using hn
    refine ⟨_, controllerStep_received (b := replyBytes q v) hc (by rw [hl]; rfl), rfl, hparams, ⟨hr, rfl, hh, ?_⟩,
      hper, by rw [hl]; rfl, hin, PerPlace.fits_rest hfits⟩
    rw [Ctrl.received_cRxp, hparams, deser_replyBytes ho]
  | deselect =>
    obtain rfl := Option.some.inj hn
    exact ⟨_, controllerStep_deselect hc, rfl, hparams, ⟨hr, rfl, hh⟩, hper, by rw [hl]; rfl, hin, hfits⟩
  | validate =>
    obtain rfl := Option.some.inj hn
    obtain ⟨⟨hph, hlog⟩, hrx⟩ := hh
    refine ⟨_, controllerStep_accept hc hph hrx, rfl, hparams, ⟨?_, rfl, ?_, ?_, ?_, ?_⟩, hper, hl, hin, hfits⟩
    · simpa using hr
    · simp [hph]
    · simp
    · simpa using hrx
    · simp [hlog, hph, acceptEvents_replyPayload]
  | post =>
    obtain rfl := Option.some.inj hn
    obtain ⟨-, hretry, -⟩ := id hh
    have hstep := controllerStep_post hc
    rw [Ctrl.posted_of_not_spent (by omega)] at hstep
    exact ⟨_, hstep, rfl, hparams, ⟨hr, rfl, hh⟩, hper, hl, hin, hfits⟩
  | finished => cases hn

/-! ### The wire's steps -/

/-- While the request goes out the peripheral polls: it listens, nothing is queued, and what has come is pending. -/
theorem linkAt_of_sending (h : p.fits .send = true) (i : Nat) :
    linkAt q v fs (.sending i) p =
      { inFifo := (requestBytes q).toList.take i, outFifo := [], inEn := true, outEn := true, selW := true,
        xfer := .send (requestBytes q) i, overrun := false } := by
  cases p with
  | pollSleep | pollOut | pollIn => rfl
  | _ => cases h

/-- While the reply comes in the peripheral skips its cycles: it listens, what is left of the reply is queued, and the
fill bytes are pending. -/
theorem linkAt_of_receiving (h : p.fits .receive = true) (i : Nat) :
    linkAt q v fs (.receiving i) p =
      { inFifo := fs, outFifo := (replyBytes q v).toList.drop i, inEn := true, outEn := true, selW := true,
        xfer := .recv ((replyBytes q v).toList.take i), overrun := false } := by
  cases p with
  | skipSleep | skipOut => rfl
  | _ => cases h

/-- A beat of a `send` uses no sample and no fill byte (R265). -/
theorem wireStep_sending_frame {b : Bytes4} {i : Nat} {d : Byte} (hw : s.link.selW = true)
    (hx : s.link.xfer = .send b i) (hd : b.toList[i]? = some d) :
    ∃ n : Inputs, n.sched = s.inputs.sched ∧ n.samples = s.inputs.samples ∧ n.fills = s.inputs.fills ∧
      wireStep s =
        .next { s with link := s.link.afterBeat s.params.inDepth d (.send b (i + 1)), inputs := n } := by
  have hk : s.link.beatKind = some (.sending b i d) := by simp [Link.beatKind, hw, hx, Bytes4.byte?, hd]
  obtain ⟨-, hsched, hsamples⟩ := beatOn_inputs s.params (.sending b i d) s.link (s.inputs.beginBeat (i == 0))
  refine ⟨_, hsched, hsamples, ?_, by simp [wireStep, hk, beatOn_sending, Link.afterBeat]⟩
  rcases upstream_inputs s.params.underflowOk s.link (s.inputs.beginBeat (i == 0)) with e | e <;> simp [beatOn, e]

/-- Before the `receive` draws a fill byte, only what is left to draw counts. -/
theorem InputsAt.congr {answered : Bool} {n n' : Inputs} (h : InputsAt q v fs 0 answered n)
    (hf : n'.fills = n.fills) (hs : n'.samples = n.samples) : InputsAt q v fs 0 answered n' where
  length := h.length
  bound := h.bound
  now h0 := absurd h0 (Nat.lt_irrefl 0)
  fills := by rw [hf]; exact h.fills
  samples := by rw [hs]; exact h.samples
  sample := h.sample

/-- The first `i + 1` bytes are the first `i` and one more. -/
theorem take_append_getElem {b : Bytes4} {i : Nat} {d : Byte} (hd : b.toList[i]? = some d) :
    b.toList.take i ++ [d] = b.toList.take (i + 1) := by
  rw [List.take_add_one, hd, Option.toList_some]

theorem exists_getElem?_toList (b : Bytes4) {i : Nat} (hi : i < 4) : ∃ d, b.toList[i]? = some d :=
  ⟨_, List.getElem?_eq_getElem hi⟩

/-- A beat of the `send`. -/
theorem ExchangeAt.wireStep_sending {i : Nat} (hok : q.params.Ok) (h : ExchangeAt q v fs (.sending i) p s) (hi : i < 4) :
    ∃ t, wireStep s = .next t ∧ t.inputs.sched = s.inputs.sched ∧ ExchangeAt q v fs (.sending (i + 1)) p t := by
  obtain ⟨hparams, ⟨hr, hc, hh⟩, hper, hl, hin, hfits⟩ := h
  rw [linkAt_of_sending hfits] at hl
  obtain ⟨d, hd⟩ := exists_getElem?_toList (requestBytes q) hi
  obtain ⟨n, hsched, hsamples, hfills, hstep⟩ :=
    wireStep_sending_frame (s := s) (b := requestBytes q) (i := i) (d := d) (by rw [hl]) (by rw [hl]) hd
  refine ⟨_, hstep, hsched, hparams, ⟨hr, hc, hh⟩, hper, ?_, hin.congr hfills hsamples, hfits⟩
  have hroom : ((requestBytes q).toList.take i).length < q.params.inDepth := by
    obtain ⟨-, hdepth, -⟩ := hok
    rw [List.length_take]
    omega
  rw [linkAt_of_sending hfits, hparams, hl, Link.afterBeat_eq_afterDelivery rfl hroom, Link.afterDelivery,
    take_append_getElem hd]
  rfl

/-- What is allowed begins with what is allowed. -/
theorem allows_of_append {r : DrawRule} {l l' : List Byte} (h : r.allows (l ++ l') = true) : r.allows l = true := by
  induction l' using List.reverseRecOn with
  | nil => rwa [List.append_nil] at h
  | append_singleton l' b ih => exact ih (DrawRule.allows_of_append (by rwa [List.append_assoc]))

/-- A fill byte more has been drawn: the one offered, where the rule allows those offered (R266). -/
theorem InputsAt.dropFill {i : Nat} {answered : Bool} {n : Inputs} (h : InputsAt q v fs i answered n) (hi : i < 4) :
    let d := (n.beginBeat (i == 0)).fill q.params.fillOk
    InputsAt q v (fs ++ [d]) (i + 1) answered ((n.beginBeat (i == 0)).dropFill d) := by
  have hnow : (n.beginBeat (i == 0)).fillsDrawn.now = fs := by
    cases i with
    | zero => exact (List.eq_nil_of_length_eq_zero h.length).symm
    | succ i => exact h.now (Nat.succ_pos i)
  refine ⟨by simp [h.length], hi, fun _ => congrArg (· ++ [_]) hnow, fun f rest hq hok => ?_, h.samples, h.sample⟩
  have hleft : fs ++ n.fills = f.toList ++ rest := h.fills f rest hq hok
  obtain ⟨l, hf, hn⟩ | ⟨l, hf, -⟩ := List.append_eq_append_iff.1 hleft
  · cases l with
    | nil =>
      have := congrArg List.length hf
      simp [h.length] at this
      omega
    | cons b l =>
      rw [hf, ← List.singleton_append, ← List.append_assoc] at hok
      have hdraw : (n.beginBeat (i == 0)).fill q.params.fillOk = b := by
        rw [Inputs.fill, hnow, Inputs.beginBeat_fills, hn, List.cons_append, List.headD_cons]
        exact DrawRule.draw_of_allows (allows_of_append hok)
      simp [hdraw, hn, hf]
  · have := congrArg List.length hf
    simp [h.length] at this
    omega

/-- While the peripheral skips its cycles it knows nothing of the fill bytes. -/
theorem PerAt.congr_fills {fs' : List Byte} {b : Per} (hp : p.fits .receive = true) (h : PerAt q v fs p b) :
    PerAt q v fs' p b := by
  cases p with
  | skipSleep | skipOut => exact ⟨h.rstN, h.pstep, h.holds⟩
  | _ => cases hp

/-- A beat of the `receive`: a byte of the reply comes in, a fill byte goes out. -/
theorem ExchangeAt.wireStep_receiving {i : Nat} (hok : q.params.Ok) (h : ExchangeAt q v fs (.receiving i) p s)
    (hi : i < 4) :
    ∃ t d, wireStep s = .next t ∧ t.inputs.sched = s.inputs.sched ∧
      ExchangeAt q v (fs ++ [d]) (.receiving (i + 1)) p t := by
  obtain ⟨hparams, ⟨hr, hc, hh⟩, hper, hl, hin, hfits⟩ := h
  rw [linkAt_of_receiving hfits] at hl
  obtain ⟨u, hu⟩ := exists_getElem?_toList (replyBytes q v) hi
  have hout : s.link.outFifo = u :: (replyBytes q v).toList.drop (i + 1) := by
    rw [hl]
    exact List.drop_eq_getElem?_toList_append.trans (by rw [hu]; rfl)
  have hempty : ((replyBytes q v).toList.take i).isEmpty = (i == 0) := by
    cases i <;> rfl
  have hroom : s.link.inFifo.length < s.params.inDepth := by
    obtain ⟨-, hdepth, -⟩ := hok
    rw [hl, hparams, hin.length]
    exact Nat.lt_of_lt_of_le hi hdepth
  have hstep := Machine.wireStep_receiving (s := s) (acc := (replyBytes q v).toList.take i) (by rw [hl]) (by rw [hl])
    (by rw [List.length_take]; omega)
  rw [beatOn_receiving_of_queued (fun _ => hroom) (by rw [hl]) hout, hempty, hparams] at hstep
  refine ⟨_, _, hstep, rfl, rfl, ⟨hr, hc, hh⟩, hper.congr_fills hfits, ?_, hin.dropFill hi, hfits⟩
  rw [linkAt_of_receiving hfits, hl, ← take_append_getElem hu]
  simp [Link.afterReceive, CtrlPlace.got]

/-! ### The peripheral's steps -/

theorem CtrlPlace.eq_settle (h : (c.leg == .settle) = true) : c = .settle := by
  cases c with
  | settle => rfl
  | _ => cases h

theorem CtrlPlace.got_of_rest (h : (c.leg == .rest) = true) : c.got = 4 := by
  cases c with
  | deselect | validate | post | finished => rfl
  | _ => cases h

/-- The peripheral takes the request the controller built (R104, R105). -/
theorem deser_requestBytes : (deser q.params.pOrder (requestBytes q)).word = requestWord q.ctrl.phase := by
  rw [requestBytes, deser_ser, word_packetOf]

/-- `P_VALIDATE` with the request of ReadMeasurement (R180). -/
theorem peripheralStep_measurement (hp : s.per.pstep = .validate) (hreq : s.per.pReq = requestWord .readMeasurement) :
    peripheralStep s = .next { s with per := s.per.begin.acceptFrame.goto .sample } := by
  have hdec : decodeRequestWord (requestWord .readMeasurement) = .getMeasurement :=
    decodeWord_encode (i := .getMeasurement) rfl
  rw [peripheralStep_validate hp, hreq, hdec]
  rfl

/-- `P_VALIDATE` with the request of another phase (R178, R179). -/
theorem peripheralStep_constant {ph : Phase} (hp : s.per.pstep = .validate) (hreq : s.per.pReq = requestWord ph)
    (hne : ph ≠ .readMeasurement) (v : Half) :
    peripheralStep s = .next { s with per := (s.per.begin.acceptFrame.reply (replyPayload v ph)).goto .send } := by
  rw [peripheralStep_validate hp, hreq]
  cases ph with
  | detectDevice =>
    have hdec : decodeRequestWord (requestWord .detectDevice) = .getIdentity :=
      decodeWord_encode (i := .getIdentity) rfl
    rw [hdec]
    rfl
  | readUnit =>
    have hdec : decodeRequestWord (requestWord .readUnit) = .getUnit := decodeWord_encode (i := .getUnit) rfl
    rw [hdec]
    rfl
  | readMeasurement => exact absurd rfl hne

/-- `P_VALIDATE` with a packet that is noise, the budget not spent (R177). -/
theorem peripheralStep_noise (hp : s.per.pstep = .validate) (hf : headerOf s.per.pReq ≠ 0xC819#16)
    (hs : ¬25 < satInc s.params.retryW s.per.pRetry) :
    peripheralStep s = .next { s with
      per := { s.per.begin with
        pRetry := satInc s.params.retryW s.per.pRetry
        pstep := .enableIn
        out := s.per.begin.out.raise 0#16 (.eFrame (headerOf s.per.pReq)) } } := by
  rw [peripheralStep_validate hp]
  rcases exec_request_cases s.per.pReq s with ⟨-, e⟩ | ⟨hf', -⟩
  · rw [e, Per.countNoise_of_not_spent (by simpa using hs)]
    rfl
  · exact absurd hf' hf

/-- The reply is queued where nothing else is (R182, R268). -/
theorem peripheralStep_queue (hp : s.per.pstep = .send) (he : s.link.outEn = true) (hout : s.link.outFifo = [])
    (hok : s.params.Ok) :
    peripheralStep s =
      .next { s with per := s.per.sent, link := s.link.queue (s.per.txBytes s.params.pOrder) } := by
  rw [peripheralStep_send hp]
  rcases peripheralSend_cases s with ⟨-, e⟩ | ⟨hno, -⟩
  · exact e
  · obtain ⟨-, -, hdepth⟩ := hok
    exact absurd ⟨he, by simpa [hout] using hdepth⟩ hno

/-- The peripheral's step leads to its next place, with a sample drawn at `P_SAMPLE`. -/
theorem ExchangeAt.peripheralStep_next (hok : q.params.Ok) (h : ExchangeAt q v fs c p s)
    (hno : p = .fillValidate → noPacketIn q.params.pOrder fs = true) (hn : p.next q.ctrl.phase c = some p') :
    ∃ t v', peripheralStep s = .next t ∧ t.inputs.sched = s.inputs.sched ∧ ExchangeAt q v' fs c p' t := by
  obtain ⟨hparams, hctrl, ⟨hr, hp, hh⟩, hl, hin, hfits⟩ := h
  cases p with
  | pollSleep =>
    obtain rfl := Option.some.inj hn
    exact ⟨_, v, peripheralStep_sleep hp, rfl, hparams, hctrl, ⟨hr, rfl, hh⟩, hl, hin, hfits⟩
  | pollOut =>
    obtain rfl := Option.some.inj hn
    exact ⟨_, v, peripheralStep_checkOut hp, rfl, hparams, hctrl, ⟨hr, by rw [hl]; rfl, hh⟩, hl, hin, hfits⟩
  | pollIn =>
    by_cases hc : c.leg = .settle
    · obtain rfl : PerPlace.recv = p' := by simpa [PerPlace.next, hc] using hn
      obtain rfl := CtrlPlace.eq_settle (beq_iff_eq.2 hc)
      exact ⟨_, v, peripheralStep_checkIn hp, rfl, hparams, hctrl, ⟨hr, by rw [hl]; rfl, hh⟩, hl, hin, rfl⟩
    · obtain ⟨hsent, rfl⟩ : c.sent < 4 ∧ PerPlace.pollSleep = p' := by simpa [PerPlace.next, hc] using hn
      refine ⟨_, v, peripheralStep_checkIn hp, rfl, hparams, hctrl, ⟨hr, ?_, hh⟩, hl, hin, hfits⟩
      have hshort : ¬4 ≤ s.link.inFifo.length := by
        rw [hl]
        simpa [linkAt, PerPlace.inbound] using hsent
      exact if_neg hshort
  | recv =>
    obtain rfl := Option.some.inj hn
    obtain rfl := CtrlPlace.eq_settle hfits
    refine ⟨_, v, peripheralStep_received (b := requestBytes q) (rest := []) hp (by rw [hl]; rfl), rfl, hparams, hctrl,
      ⟨hr, rfl, hh, ?_⟩, by rw [hl]; rfl, hin, hfits⟩
    rw [Per.received_pReq, hparams, deser_requestBytes]
  | disableIn =>
    obtain rfl := Option.some.inj hn
    exact ⟨_, v, peripheralStep_disableIn hp, rfl, hparams, hctrl, ⟨hr, rfl, hh⟩, by rw [hl]; rfl, hin, hfits⟩
  | validate =>
    by_cases hm : q.ctrl.phase = .readMeasurement
    · obtain rfl : PerPlace.sample = p' := by simpa [PerPlace.next, hm] using hn
      exact ⟨_, v, peripheralStep_measurement hp (by rw [hh.2, hm]), rfl, hparams, hctrl, ⟨hr, rfl, hh.1, rfl, hm⟩, hl,
        hin, hfits⟩
    · obtain rfl : PerPlace.send = p' := by simpa [PerPlace.next, hm] using hn
      exact ⟨_, v, peripheralStep_constant hp hh.2 hm v, rfl, hparams, hctrl,
        ⟨hr, rfl, hh.1, rfl, rfl, fun he => absurd he hm⟩, hl,
        ⟨hin.length, hin.bound, hin.now, hin.fills, nofun, fun _ he => absurd he hm⟩, hfits⟩
  | sample =>
    obtain rfl := Option.some.inj hn
    obtain rfl := CtrlPlace.eq_settle hfits
    refine ⟨_, s.inputs.sample, peripheralStep_sample hp, rfl, hparams, ⟨hctrl.rstN, hctrl.cstep, hctrl.holds⟩,
      ⟨hr, rfl, hh.1, hh.2.1, ?_, fun _ => rfl⟩, by rw [hl]; rfl,
      ⟨hin.length, hin.bound, hin.now, hin.fills, nofun, fun _ _ w ws hw => ?_⟩, hfits⟩
    · rw [Per.sampled_pRsp, replyWord, hh.2.2]
      rfl
    · rw [Inputs.sample, hin.samples rfl, hw, List.headD_cons]
  | send =>
    obtain rfl := Option.some.inj hn
    obtain rfl := CtrlPlace.eq_settle hfits
    obtain ⟨-, -, hrsp, -⟩ := id hh
    refine ⟨_, v, peripheralStep_queue hp (by rw [hl]; rfl) (by rw [hl]; rfl) (by rw [hparams]; exact hok), rfl, hparams,
      hctrl, ⟨hr, rfl, hh⟩, ?_, hin, hfits⟩
    rw [hl, Per.txBytes, hrsp, hparams]
    rfl
  | enableIn =>
    obtain rfl := Option.some.inj hn
    obtain rfl := CtrlPlace.eq_settle hfits
    obtain rfl := List.eq_nil_of_length_eq_zero hin.length
    exact ⟨_, v, peripheralStep_enableIn hp, rfl, hparams, hctrl, ⟨hr, rfl, hh⟩, by rw [hl]; rfl, hin, rfl⟩
  | skipSleep =>
    obtain rfl := Option.some.inj hn
    exact ⟨_, v, peripheralStep_sleep hp, rfl, hparams, hctrl, ⟨hr, rfl, hh⟩, hl, hin, hfits⟩
  | skipOut =>
    have hout : s.link.outFifo.length = 4 - c.got := by
      rw [hl]
      exact List.length_drop
    by_cases hgot : c.got < 4
    · obtain rfl : PerPlace.skipSleep = p' := by simpa [PerPlace.next, hgot] using hn
      exact ⟨_, v, peripheralStep_checkOut hp, rfl, hparams, hctrl, ⟨hr, if_pos (by omega), hh⟩, hl, hin, hfits⟩
    · obtain ⟨hc, rfl⟩ : c.leg = .rest ∧ PerPlace.fillIn = p' := by simpa [PerPlace.next, hgot] using hn
      exact ⟨_, v, peripheralStep_checkOut hp, rfl, hparams, hctrl, ⟨hr, if_neg (by omega), hh⟩, hl, hin,
        beq_iff_eq.2 hc⟩
  | fillIn =>
    obtain rfl := Option.some.inj hn
    have hwhole : 4 ≤ s.link.inFifo.length := by
      rw [hl]
      exact (hin.length.trans (CtrlPlace.got_of_rest hfits)).ge
    exact ⟨_, v, peripheralStep_checkIn hp, rfl, hparams, hctrl, ⟨hr, if_pos hwhole, hh⟩, hl, hin, hfits⟩
  | fillRecv =>
    obtain rfl := Option.some.inj hn
    obtain ⟨f, rfl⟩ := exists_eq_toList (hin.length.trans (CtrlPlace.got_of_rest hfits))
    obtain ⟨hlog, hretry, hans⟩ := hh
    refine ⟨_, v, peripheralStep_received (b := f) (rest := []) hp (by rw [hl]; rfl), rfl, hparams, hctrl,
      ⟨hr, rfl, hlog, hretry, hans, f, rfl, ?_⟩, by rw [hl]; rfl, hin, hfits⟩
    rw [Per.received_pReq, hparams]
  | fillDisable =>
    obtain rfl := Option.some.inj hn
    exact ⟨_, v, peripheralStep_disableIn hp, rfl, hparams, hctrl, ⟨hr, rfl, hh⟩, by rw [hl]; rfl, hin, hfits⟩
  | fillValidate =>
    obtain rfl := Option.some.inj hn
    obtain ⟨hlog, hretry, hans, f, rfl, hreq⟩ := hh
    have hf : (deser q.params.pOrder f).header ≠ 0xC819#16 := by
      simpa [noPacketIn_toList, Config.sentinel] using hno rfl
    have hcount : satInc s.params.retryW s.per.pRetry = 1 := by
      obtain ⟨hw, -⟩ := hok
      rw [hretry, satInc_eq (by rw [hparams]; exact hw) (by decide)]
    refine ⟨_, v, peripheralStep_noise hp (by rw [hreq, headerOf_word]; exact hf) (by omega), rfl, hparams, hctrl,
      ⟨hr, rfl, hcount, hans, f, rfl, ?_⟩, hl, hin, hfits⟩
    rw [hreq, headerOf_word, ← hlog]
    rfl
  | fillEnable =>
    obtain rfl := Option.some.inj hn
    exact ⟨_, v, peripheralStep_enableIn hp, rfl, hparams, hctrl, ⟨hr, rfl, hh⟩, by rw [hl]; rfl, hin, hfits⟩
  | doneSleep =>
    obtain rfl := Option.some.inj hn
    exact ⟨_, v, peripheralStep_sleep hp, rfl, hparams, hctrl, ⟨hr, rfl, hh⟩, hl, hin, hfits⟩
  | doneOut =>
    obtain rfl := Option.some.inj hn
    have hout : s.link.outFifo.length = 4 - c.got := by
      rw [hl]
      exact List.length_drop
    have hgot := CtrlPlace.got_of_rest hfits
    exact ⟨_, v, peripheralStep_checkOut hp, rfl, hparams, hctrl, ⟨hr, if_neg (by omega), hh⟩, hl, hin, hfits⟩
  | doneIn =>
    obtain rfl := Option.some.inj hn
    exact ⟨_, v, peripheralStep_checkIn hp, rfl, hparams, hctrl, ⟨hr, by rw [hl]; rfl, hh⟩, hl, hin, hfits⟩

end

end Sys2Proof.Machine

namespace Sys2Proof.Machine

section
variable {q s t : State} {v : Half} {fs : List Byte} {c c' : CtrlPlace} {p p' : PerPlace}

/-! ### A turn of the tuned schedule -/

theorem ExchangeAt.running_controller (h : ExchangeAt q v fs c p s) (ht : s.inputs.turn = .controller) :
    Running .controller s :=
  ⟨by rw [h.link]; rfl, ht, h.ctrl.rstN⟩

theorem ExchangeAt.running_peripheral (h : ExchangeAt q v fs c p s) (ht : s.inputs.turn = .peripheral) :
    Running .peripheral s :=
  ⟨by rw [h.link]; rfl, ht, by simp [State.free, h.ctrl.rstN, h.per.rstN]⟩

theorem ExchangeAt.running_wire (h : ExchangeAt q v fs c p s) (ht : s.inputs.turn = .wire) : Running .wire s :=
  ⟨by rw [h.link]; rfl, ht, by simp [State.free, h.ctrl.rstN]⟩

/-- The wire's step leads to the next place of the controller. -/
theorem ExchangeAt.wireStep_next (hok : q.params.Ok) (h : ExchangeAt q v fs c p s) (hn : c.beat = some c') :
    ∃ t fs', wireStep s = .next t ∧ t.inputs.sched = s.inputs.sched ∧ ExchangeAt q v fs' c' p t := by
  cases c with
  | sending i =>
    obtain ⟨hi, rfl⟩ : i < 4 ∧ CtrlPlace.sending (i + 1) = c' := by simpa [CtrlPlace.beat] using hn
    obtain ⟨t, hstep, hsched, hat⟩ := h.wireStep_sending hok hi
    exact ⟨t, fs, hstep, hsched, hat⟩
  | receiving i =>
    obtain ⟨hi, rfl⟩ : i < 4 ∧ CtrlPlace.receiving (i + 1) = c' := by simpa [CtrlPlace.beat] using hn
    obtain ⟨t, d, hstep, hsched, hat⟩ := h.wireStep_receiving hok hi
    exact ⟨t, _, hstep, hsched, hat⟩
  | _ => cases hn

/-- A turn of the tuned schedule leads to the next places. -/
theorem ExchangeAt.step_next (hok : q.params.Ok) (ho : q.params.cOrder = q.params.pOrder)
    (h : ExchangeAt q v fs c p s) (hno : p = .fillValidate → noPacketIn q.params.pOrder fs = true)
    (hn : nextPlaces q.ctrl.phase s.inputs.turn c p = some (c', p')) :
    ∃ t v' fs', step s = .next t ∧ t.inputs.sched = s.inputs.sched.tail ∧ ExchangeAt q v' fs' c' p' t := by
  cases ht : s.inputs.turn with
  | controller =>
    obtain ⟨c', hc, rfl, rfl⟩ : ∃ d, c.next p = some d ∧ d = c' ∧ p = p' := by simpa [nextPlaces, ht] using hn
    rw [step_controller (h.running_controller ht)]
    obtain ⟨t, hstep, hin, hat⟩ := h.advance.controllerStep_next ho hc
    exact ⟨t, v, fs, hstep, by rw [hin]; rfl, hat⟩
  | peripheral =>
    obtain ⟨p', hp, rfl, rfl⟩ : ∃ d, p.next q.ctrl.phase c = some d ∧ c = c' ∧ d = p' := by
      simpa [nextPlaces, ht] using hn
    rw [step_peripheral (h.running_peripheral ht)]
    obtain ⟨t, v', hstep, hsched, hat⟩ := h.advance.peripheralStep_next hok hno hp
    exact ⟨t, v', fs, hstep, hsched, hat⟩
  | wire =>
    obtain ⟨c', hc, rfl, rfl⟩ : ∃ d, c.beat = some d ∧ d = c' ∧ p = p' := by simpa [nextPlaces, ht] using hn
    rw [step_wire (h.running_wire ht)]
    obtain ⟨t, fs', hstep, hsched, hat⟩ := h.advance.wireStep_next hok hc
    exact ⟨t, v, fs', hstep, hsched, hat⟩
  | platform _ _ => simp [nextPlaces, ht] at hn

/-! ### What the tuned schedule admits -/

theorem ExchangeAt.admits_controller (h : ExchangeAt q v fs c p s) :
    (stageAt c p).admits s .controller = (c.next p).isSome := by
  have hr := h.ctrl.rstN
  have hc := h.ctrl.cstep
  have hx : s.link.xfer = c.xfer q v := by rw [h.link]; rfl
  cases c with
  | sending i =>
    by_cases hi : i = 4 <;>
      simp [stageAt, CtrlPlace.leg, TunedStage.admits, enabled, CtrlPlace.next, hr, hc, hx, CtrlPlace.cstep,
        CtrlPlace.xfer, Config.pktBytes, hi]
  | receiving i =>
    have hle : i ≤ 4 := h.inputs.bound
    have hdone : 4 ≤ i ↔ i = 4 := by omega
    by_cases hi : i = 4 <;>
      simp [stageAt, CtrlPlace.leg, TunedStage.admits, enabled, CtrlPlace.next, hr, hc, hx, CtrlPlace.cstep,
        CtrlPlace.xfer, Config.pktBytes, hdone, hi]
  | settle =>
    by_cases hp : p.replied = true <;>
      simp [stageAt, CtrlPlace.leg, TunedStage.admits, enabled, CtrlPlace.next, hr, hc, CtrlPlace.cstep, hp]
  | sleep | build | select | issue | ask | deselect | validate | post | finished =>
    simp [stageAt, CtrlPlace.leg, TunedStage.admits, enabled, CtrlPlace.next, hr, hc, hx, CtrlPlace.cstep, CtrlPlace.xfer]

/-- The wire's turn is admitted where it has a beat. -/
theorem ExchangeAt.admits_wire (h : ExchangeAt q v fs c p s) :
    (stageAt c p).admits s .wire = c.beat.isSome := by
  have hw : s.link.selW = c.cstep.selected := by rw [h.link]; rfl
  have hx : s.link.xfer = c.xfer q v := by rw [h.link]; rfl
  cases c with
  | sending i =>
    by_cases hi : i < 4 <;>
      simp [stageAt, CtrlPlace.leg, TunedStage.admits, enabled, CtrlPlace.beat, Link.beatKind, hw, hx, CtrlPlace.cstep,
        CStep.selected, CtrlPlace.xfer, Bytes4.byte?, hi]
  | receiving i =>
    by_cases hi : i < 4 <;>
      simp [stageAt, CtrlPlace.leg, TunedStage.admits, enabled, CtrlPlace.beat, Link.beatKind, hw, hx, CtrlPlace.cstep,
        CStep.selected, CtrlPlace.xfer, Config.pktBytes, hi]
  | settle =>
    by_cases hp : p.replied = true <;>
      simp [stageAt, CtrlPlace.leg, TunedStage.admits, enabled, CtrlPlace.beat, Link.beatKind, hx, CtrlPlace.xfer, hp]
  | sleep | build | select | issue | ask | deselect | validate | post | finished =>
    simp [stageAt, CtrlPlace.leg, TunedStage.admits, enabled, CtrlPlace.beat, Link.beatKind, hx, CtrlPlace.xfer]

/-- The peripheral has an enabled step at every place. -/
theorem ExchangeAt.enabled_peripheral (hok : q.params.Ok) (h : ExchangeAt q v fs c p s) :
    enabled .peripheral s = true := by
  obtain ⟨hparams, -, ⟨hr, hp, -⟩, hl, hin, hfits⟩ := h
  cases p with
  | recv =>
    obtain rfl := CtrlPlace.eq_settle hfits
    rw [enabled, hr, hp, hl]
    rfl
  | fillRecv =>
    have hwhole := hin.length.trans (CtrlPlace.got_of_rest hfits)
    simp [enabled, hr, hp, hl, PerPlace.pstep, linkAt, PerPlace.inbound, hwhole, Config.pktBytes]
  | send =>
    obtain ⟨-, -, hdepth⟩ := hok
    have hroom : s.link.canSend s.params.outDepth = true := by
      rw [Link.canSend_iff, hl, hparams]
      exact ⟨rfl, hdepth⟩
    simp [enabled, hr, hp, PerPlace.pstep, hroom]
  | _ => exact Machine.enabled_peripheral hr (by rw [hp]; decide) (by rw [hp]; decide)

theorem stageAt_of_ne_settle (h : c.leg ≠ .settle) : stageAt c p = c.leg := by
  cases c with
  | settle => exact absurd rfl h
  | _ => rfl

/-- While the request goes out the peripheral idles, but does not take what has come (R275, stage 1). -/
theorem ExchangeAt.perIdles (h : ExchangeAt q v fs c p s) (hc : c.leg = .send) :
    s.perIdles = (p.next q.ctrl.phase c).isSome := by
  obtain ⟨-, -, ⟨-, hp, -⟩, hl, -, hfits⟩ := h
  rw [hc] at hfits
  cases p with
  | pollSleep => simp [State.perIdles, hp, PerPlace.pstep, PerPlace.next]
  | pollOut => simp [State.perIdles, hp, PerPlace.pstep, PerPlace.next, hl, linkAt, PerPlace.queued, PerPlace.replied]
  | pollIn =>
    by_cases hsent : c.sent < 4 <;>
      simp [State.perIdles, hp, PerPlace.pstep, PerPlace.next, hl, linkAt, PerPlace.inbound, hc, hsent, Config.pktBytes]
  | _ => cases hfits

theorem PerPlace.replied_of_receive (h : p.fits .receive = true) : p.replied = true := by
  revert h
  cases p <;> decide

/-- While the reply is queued the peripheral skips its cycles (R275, stage 3). -/
theorem ExchangeAt.perSkips (h : ExchangeAt q v fs c p s) (hc : c.leg ≠ .rest) (hr : p.replied = true) :
    s.perSkips = (p.next q.ctrl.phase c).isSome := by
  obtain ⟨-, -, ⟨-, hp, -⟩, hl, -, hfits⟩ := h
  cases p with
  | skipSleep => simp [State.perSkips, hp, PerPlace.pstep, PerPlace.next]
  | skipOut =>
    have hskips : s.perSkips = decide (c.got < 4) := by
      rw [Bool.eq_iff_iff]
      simp [State.perSkips, hp, PerPlace.pstep, hl, linkAt, PerPlace.queued, PerPlace.replied]
    by_cases hgot : c.got < 4 <;> simp [hskips, PerPlace.next, hc, hgot]
  | pollSleep | pollOut | pollIn | recv | disableIn | validate | sample | send | enableIn => cases hr
  | _ => exact absurd (beq_iff_eq.1 hfits) hc

/-- In the settle delay and after the exchange the peripheral always has a next place. -/
theorem PerPlace.next_isSome (ph : Phase) (hfits : p.fits c.leg = true) (hc : c.leg = .settle ∨ c.leg = .rest) :
    (p.next ph c).isSome = true := by
  cases p with
  | pollIn =>
    rcases hc with hc | hc
    · simp [PerPlace.next, hc]
    · rw [hc] at hfits
      cases hfits
  | validate => by_cases hm : ph = .readMeasurement <;> simp [PerPlace.next, hm]
  | skipOut =>
    rcases hc with hc | hc
    · obtain rfl := CtrlPlace.eq_settle (beq_iff_eq.2 hc)
      rfl
    · by_cases hgot : c.got < 4 <;> simp [PerPlace.next, hc, hgot]
  | _ => rfl

/-- The peripheral's turn is admitted where it has a next place. -/
theorem ExchangeAt.admits_peripheral (hok : q.params.Ok) (h : ExchangeAt q v fs c p s) :
    (stageAt c p).admits s .peripheral = (p.next q.ctrl.phase c).isSome := by
  have he := h.enabled_peripheral hok
  cases hc : c.leg with
  | send =>
    rw [stageAt_of_ne_settle (by simp [hc]), hc, TunedStage.admits, he, h.perIdles hc, Bool.true_and]
  | settle =>
    obtain rfl := CtrlPlace.eq_settle (beq_iff_eq.2 hc)
    by_cases hr : p.replied = true
    · simp [stageAt, hc, hr, TunedStage.admits, he, h.perSkips (by simp [hc]) hr]
    · simp [stageAt, hc, hr, TunedStage.admits, he, PerPlace.next_isSome q.ctrl.phase h.fits (.inl hc)]
  | receive =>
    have hfits := h.fits
    rw [hc] at hfits
    rw [stageAt_of_ne_settle (by simp [hc]), hc, TunedStage.admits, he,
      h.perSkips (by simp [hc]) (PerPlace.replied_of_receive hfits), Bool.true_and]
  | rest =>
    rw [stageAt_of_ne_settle (by simp [hc]), hc, TunedStage.admits, he, PerPlace.next_isSome q.ctrl.phase h.fits (.inr hc)]
    rfl

/-- The turns a tuned schedule admits are those that lead to next places. -/
theorem ExchangeAt.admits_eq (hok : q.params.Ok) (h : ExchangeAt q v fs c p s) (a : Agent) :
    (stageAt c p).admits s a = (nextPlaces q.ctrl.phase a c p).isSome := by
  cases a with
  | controller => rw [h.admits_controller, nextPlaces, Option.isSome_map]
  | peripheral => rw [h.admits_peripheral hok, nextPlaces, Option.isSome_map]
  | wire => rw [h.admits_wire, nextPlaces, Option.isSome_map]
  | platform _ _ =>
    cases hg : stageAt c p <;> simp [TunedStage.admits, nextPlaces]

/-! ### The stages of the tuned schedule -/

/-- The first stage lasts until the request is out. -/
theorem ExchangeAt.after_send (h : ExchangeAt q v fs c p s) :
    TunedStage.send.after s = if c.leg = .settle then .settle else .send := by
  rw [TunedStage.after, h.ctrl.cstep]
  cases c <;> rfl

/-- The second lasts until the peripheral has answered and sleeps. -/
theorem ExchangeAt.after_settle (h : ExchangeAt q v fs .settle p s) (hp : p ≠ .skipOut) :
    TunedStage.settle.after s = if p.replied then .receive else .settle := by
  rw [TunedStage.after, h.per.pstep, h.link]
  have hfits := h.fits
  cases p with
  | pollSleep | pollOut | pollIn | recv | disableIn | validate | sample | send | enableIn =>
    simp [PerPlace.pstep, PerPlace.replied, linkAt, PerPlace.inbound, CtrlPlace.sent, Bytes4.toList]
  | skipSleep => simp [PerPlace.pstep, PerPlace.replied, linkAt, PerPlace.inbound,
      List.eq_nil_of_length_eq_zero h.inputs.length]
  | skipOut => exact absurd rfl hp
  | _ => cases hfits

/-- The third lasts until the reply is in. -/
theorem ExchangeAt.after_receive (h : ExchangeAt q v fs c p s) :
    TunedStage.receive.after s = if c.cstep = .deselect then .rest else .receive := by
  rw [TunedStage.after, h.ctrl.cstep]

theorem PerPlace.replied_of_next {ph : Phase} (hr : p.replied = true) (hn : p.next ph c = some p') :
    p'.replied = true := by
  cases p with
  | pollSleep | pollOut | pollIn | recv | disableIn | validate | sample | send | enableIn => cases hr
  | skipOut =>
    rw [PerPlace.next] at hn
    split_ifs at hn <;> (obtain rfl := Option.some.inj hn; rfl)
  | _ =>
    obtain rfl := Option.some.inj hn
    rfl

theorem PerPlace.ne_skipOut_of_next {ph : Phase} (hr : ¬p.replied = true) (hn : p.next ph c = some p') :
    p' ≠ .skipOut := by
  rintro rfl
  cases p with
  | pollIn | validate =>
    rw [PerPlace.next] at hn
    split_ifs at hn <;> cases hn
  | skipSleep | skipOut => exact hr rfl
  | _ => cases hn

theorem PerPlace.not_replied_of_send (h : p.fits .send = true) : p.replied = false := by
  revert h
  cases p <;> decide

theorem CtrlPlace.cstep_of_receive (h : c.leg = .receive) : c.cstep = .recv := by
  cases c with
  | ask | receiving _ => rfl
  | _ => cases h

/-- A turn of the tuned schedule leads to the stage of the next places. -/
theorem ExchangeAt.after_next (hfits : p.fits c.leg = true) {ph : Phase} {a : Agent}
    (hn : nextPlaces ph a c p = some (c', p')) (h : ExchangeAt q v fs c' p' s) :
    (stageAt c p).after s = stageAt c' p' := by
  cases a with
  | controller =>
    obtain ⟨c', hc, rfl, rfl⟩ : ∃ d, c.next p = some d ∧ d = c' ∧ p = p' := by simpa [nextPlaces] using hn
    cases c with
    | sleep | build | select | issue =>
      obtain rfl := Option.some.inj hc
      exact h.after_send
    | sending i =>
      obtain ⟨-, rfl⟩ : i = 4 ∧ CtrlPlace.settle = c' := by simpa [CtrlPlace.next] using hc
      simp [stageAt, CtrlPlace.leg, h.after_send, PerPlace.not_replied_of_send hfits]
    | settle =>
      obtain ⟨hr, rfl⟩ : p.replied = true ∧ CtrlPlace.ask = c' := by simpa [CtrlPlace.next] using hc
      rw [stageAt, CtrlPlace.leg, if_pos hr]
      exact h.after_receive
    | ask =>
      obtain rfl := Option.some.inj hc
      exact h.after_receive
    | receiving i =>
      obtain ⟨-, rfl⟩ : i = 4 ∧ CtrlPlace.deselect = c' := by simpa [CtrlPlace.next] using hc
      exact h.after_receive
    | deselect | validate | post =>
      obtain rfl := Option.some.inj hc
      rfl
    | finished => cases hc
  | peripheral =>
    obtain ⟨p', hp, rfl, rfl⟩ : ∃ d, p.next ph c = some d ∧ c = c' ∧ d = p' := by
      simpa [nextPlaces] using hn
    cases hc : c.leg with
    | send =>
      rw [stageAt_of_ne_settle (by simp [hc]), stageAt_of_ne_settle (by simp [hc]), hc, h.after_send, hc]
      rfl
    | settle =>
      obtain rfl := CtrlPlace.eq_settle (beq_iff_eq.2 hc)
      by_cases hr : p.replied = true
      · simp [stageAt, CtrlPlace.leg, hr, PerPlace.replied_of_next hr hp, h.after_receive, CtrlPlace.cstep]
      · simp [stageAt, CtrlPlace.leg, hr, h.after_settle (PerPlace.ne_skipOut_of_next hr hp)]
    | receive =>
      rw [stageAt_of_ne_settle (by simp [hc]), stageAt_of_ne_settle (by simp [hc]), hc, h.after_receive,
        CtrlPlace.cstep_of_receive hc]
      rfl
    | rest =>
      rw [stageAt_of_ne_settle (by simp [hc]), stageAt_of_ne_settle (by simp [hc]), hc]
      rfl
  | wire =>
    obtain ⟨c', hc, rfl, rfl⟩ : ∃ d, c.beat = some d ∧ d = c' ∧ p = p' := by simpa [nextPlaces] using hn
    cases c with
    | sending i =>
      obtain ⟨-, rfl⟩ : i < 4 ∧ CtrlPlace.sending (i + 1) = c' := by simpa [CtrlPlace.beat] using hc
      exact h.after_send
    | receiving i =>
      obtain ⟨-, rfl⟩ : i < 4 ∧ CtrlPlace.receiving (i + 1) = c' := by simpa [CtrlPlace.beat] using hc
      exact h.after_receive
    | _ => cases hc
  | platform _ _ => simp [nextPlaces] at hn

end

end Sys2Proof.Machine

namespace Sys2Proof.Machine

section
variable {q s t : State} {v : Half} {fs : List Byte} {c c' : CtrlPlace} {p p' : PerPlace}

/-! ### A tuned run from a quiescent point -/

/-- What is asked of the state a tuned exchange begins at (R274, R275). -/
structure ExchangeStart (q : State) : Prop where
  ctrlRst : q.ctrl.rstN = true
  perRst : q.per.rstN = true
  overrun : q.link.overrun = false
  ok : q.params.Ok
  order : q.params.cOrder = q.params.pOrder
  quiescent : Quiescent q

/-- The link of a quiescent point (R274). -/
theorem ExchangeStart.link_eq (h : ExchangeStart q) :
    q.link = { inFifo := [], outFifo := [], inEn := true, outEn := true, selW := false, xfer := .idle,
               overrun := false } := by
  obtain ⟨hx, hw, hin, hout, hie, hoe, -⟩ := h.quiescent
  have ho := h.overrun
  cases hl : q.link
  simp_all

/-- The inputs before an exchange. -/
theorem inputsAt_start (q : State) (v : Half) : InputsAt q v [] 0 false q.inputs :=
  ⟨rfl, Nat.zero_le 4, fun h => absurd h (Nat.lt_irrefl 0), fun _ _ hq _ => hq, fun _ => rfl, nofun⟩

/-- At a quiescent point an exchange stands at its beginning: the controller at `C_BUILD`, or at the sleep before it. -/
theorem ExchangeStart.exchangeAt (h : ExchangeStart q) (v : Half)
    (hc : c = .sleep ∧ q.ctrl.cstep = .sleep ∨ c = .build ∧ q.ctrl.cstep = .build)
    (hp : p = .pollSleep ∧ q.per.pstep = .sleep ∨ p = .pollOut ∧ q.per.pstep = .checkOut ∨
      p = .pollIn ∧ q.per.pstep = .checkIn) :
    ExchangeAt q v [] c p q := by
  have hctrl : CtrlAt q v c q.ctrl := by
    rcases hc with ⟨rfl, hc⟩ | ⟨rfl, hc⟩ <;> exact ⟨h.ctrlRst, hc, rfl, rfl⟩
  have hper : PerAt q v [] p q.per := by
    rcases hp with ⟨rfl, hp⟩ | ⟨rfl, hp⟩ | ⟨rfl, hp⟩ <;> exact ⟨h.perRst, hp, rfl⟩
  refine ⟨rfl, hctrl, hper, ?_, ?_, ?_⟩
  · rw [h.link_eq]
    rcases hc with ⟨rfl, -⟩ | ⟨rfl, -⟩ <;> rcases hp with ⟨rfl, -⟩ | ⟨rfl, -⟩ | ⟨rfl, -⟩ <;> rfl
  · rcases hc with ⟨rfl, -⟩ | ⟨rfl, -⟩ <;> rcases hp with ⟨rfl, -⟩ | ⟨rfl, -⟩ | ⟨rfl, -⟩ <;> exact inputsAt_start q v
  · rcases hc with ⟨rfl, -⟩ | ⟨rfl, -⟩ <;> rcases hp with ⟨rfl, -⟩ | ⟨rfl, -⟩ | ⟨rfl, -⟩ <;> rfl

/-- Once the reply is in, a tuned run draws no byte more: the wire has no turn (R275, stage 4). -/
theorem fillsDrawn_of_tunedRun {k : Nat} {g : TunedStage} (hg : g.after s = .rest) (hrun : tunedRun k g s = some t) :
    t.inputs.fillsDrawn = s.inputs.fillsDrawn := by
  induction k generalizing g s with
  | zero =>
    obtain ⟨-, rfl⟩ := tunedRun_zero.1 hrun
    rfl
  | succ k ih =>
    obtain ⟨hadm, u, hstep, hrest⟩ := tunedRun_succ.1 hrun
    rw [hg] at hadm hrest
    have hu : u.inputs.fillsDrawn = s.inputs.fillsDrawn := by
      cases (step_move hstep).2 with
      | controller _ _ m => rw [m.frame.inputs]; rfl
      | peripheral _ _ m => exact m.frame.fillsDrawn
      | controllerHeld | peripheralHeld => rfl
      | wire ht => simp [ht, TunedStage.admits] at hadm
      | platform ht => simp [ht, TunedStage.admits] at hadm
    exact (ih rfl hrest).trans hu

theorem stageAt_of_rest (h : (c.leg == .rest) = true) : stageAt c p = .rest := by
  rw [stageAt_of_ne_settle (by simp [beq_iff_eq.1 h]), beq_iff_eq.1 h]

/-- A tuned run ends at places of the exchange, where stage 4 is over. -/
theorem ExchangeAt.of_tunedRun (hq : ExchangeStart q) {k : Nat} {g : TunedStage} (h : ExchangeAt q v fs c p s)
    (hg : g.after s = stageAt c p) (hrun : tunedRun k g s = some t)
    (hno : noPacketIn q.params.pOrder t.inputs.fillsDrawn.now = true) :
    ∃ v' fs' c' p', ExchangeAt q v' fs' c' p' t ∧ stageAt c' p' = .rest ∧ t.tunedOver = true := by
  induction k generalizing g s v fs c p with
  | zero =>
    obtain ⟨⟨hrest, hover⟩, rfl⟩ := tunedRun_zero.1 hrun
    exact ⟨v, fs, c, p, h, hg.symm.trans hrest, hover⟩
  | succ k ih =>
    obtain ⟨hadm, u, hstep, hrest⟩ := tunedRun_succ.1 hrun
    rw [hg, h.admits_eq hq.ok] at hadm
    obtain ⟨⟨c', p'⟩, hn⟩ := Option.isSome_iff_exists.1 hadm
    have hfill : p = .fillValidate → noPacketIn q.params.pOrder fs = true := by
      rintro rfl
      have hgot := CtrlPlace.got_of_rest h.fits
      rw [← h.inputs.now (by omega), ← fillsDrawn_of_tunedRun (hg.trans (stageAt_of_rest h.fits)) hrun]
      exact hno
    obtain ⟨u', v', fs', hstep', -, hat⟩ := h.step_next hq.ok hq.order hfill hn
    obtain rfl : u = u' := by
      rw [hstep] at hstep'
      exact Host.Outcome.next.inj hstep'
    exact ih hat (by rw [hg]; exact ExchangeAt.after_next h.fits hn hat) hrest

/-- Where stage 4 is over, the controller sleeps and the peripheral polls again, the fill bytes taken and counted. -/
theorem ExchangeAt.of_tunedOver (h : ExchangeAt q v fs c p s) (hrest : stageAt c p = .rest)
    (hover : s.tunedOver = true) :
    c = .finished ∧ (p = .doneSleep ∨ p = .doneOut ∨ p = .doneIn) := by
  obtain ⟨⟨hcs, hempty⟩, hpoll⟩ : (c.cstep = .sleep ∧ p.inbound q fs c = []) ∧
      (p.pstep = .sleep ∨ p.pstep = .checkOut ∨ p.pstep = .checkIn) := by
    simpa [State.tunedOver, h.ctrl.cstep, h.per.pstep, h.link, linkAt] using hover
  obtain rfl : c = .finished := by
    cases c with
    | finished => rfl
    | sleep => cases hrest
    | _ => cases hcs
  have hfs : fs ≠ [] := List.ne_nil_of_length_pos (by rw [h.inputs.length]; decide)
  have hfits := h.fits
  cases p with
  | doneSleep | doneOut | doneIn => simp
  | skipSleep | skipOut | fillIn | fillRecv => exact absurd hempty hfs
  | fillDisable | fillValidate | fillEnable => simp [PerPlace.pstep] at hpoll
  | _ => cases hfits

/-- What a completed exchange leaves (R276). -/
structure ExchangeDone (q : State) (v : Half) (f : Bytes4) (s : State) : Prop where
  params : s.params = q.params
  ctrlRst : s.ctrl.rstN = true
  quiescent : Quiescent s
  overrun : s.link.overrun = false
  cstep : s.ctrl.cstep = .sleep
  phase : s.ctrl.phase = nextPhase q.ctrl.phase
  cRetry : s.ctrl.cRetry = 0
  pRetry : s.per.pRetry = 1
  cRxp : s.ctrl.cRxp = s.per.pRsp
  ctrlLog : s.ctrl.out.log = q.ctrl.out.log ++ acceptEvents q.ctrl.phase v
  perLog : s.per.out.log = q.per.out.log ++ [.eFrame (deser q.params.pOrder f).header]
  sample : q.ctrl.phase = .readMeasurement → s.per.pSmp = v
  drawn : s.inputs.fillsDrawn.now = f.toList

/-- At the last places the exchange is complete. -/
theorem ExchangeAt.done (h : ExchangeAt q v fs .finished p s) (hp : p = .doneSleep ∨ p = .doneOut ∨ p = .doneIn) :
    ∃ f : Bytes4, fs = f.toList ∧ ExchangeDone q v f s := by
  obtain ⟨hparams, ⟨hcr, hc, hph, hretry, hrx, hlog⟩, ⟨hpr, hps, hh⟩, hl, hin, -⟩ := h
  have hholds : s.per.pRetry = 1 ∧ Answered q v s.per ∧ ∃ f : Bytes4, fs = f.toList ∧
      s.per.out.log = q.per.out.log ++ [.eFrame (deser q.params.pOrder f).header] := by
    rcases hp with rfl | rfl | rfl <;> exact hh
  have hlink : s.link = linkAt q v fs .finished .doneSleep := by
    rcases hp with rfl | rfl | rfl <;> exact hl
  have hpoll : s.per.pstep = .sleep ∨ s.per.pstep = .checkOut ∨ s.per.pstep = .checkIn := by
    rcases hp with rfl | rfl | rfl <;> simp [hps, PerPlace.pstep]
  obtain ⟨hcount, ⟨hrsp, hsmp⟩, f, rfl, hplog⟩ := hholds
  refine ⟨f, rfl, hparams, hcr, ?_, by rw [hlink]; rfl, hc, hph, hretry, hcount, hrx.trans hrsp.symm, hlog, hplog, hsmp,
    hin.now (by decide)⟩
  rw [Quiescent, hlink]
  exact ⟨rfl, rfl, rfl, rfl, rfl, rfl, .inl hc, hpoll⟩

/-- Every tuned run from a quiescent point completes the exchange (R275, R276). -/
theorem ExchangeStart.done_of_tunedRun (hq : ExchangeStart q) {k : Nat} (hrun : tunedRun k .send q = some t)
    (hno : noPacketIn q.params.pOrder t.inputs.fillsDrawn.now = true) :
    ∃ (v : Half) (f : Bytes4), ExchangeDone q v f t := by
  obtain ⟨-, -, -, -, -, -, hcq, hpq⟩ := hq.quiescent
  obtain ⟨c, hc⟩ : ∃ c : CtrlPlace, c = .sleep ∧ q.ctrl.cstep = .sleep ∨ c = .build ∧ q.ctrl.cstep = .build := by
    simpa [exists_or] using hcq
  obtain ⟨p, hp⟩ : ∃ p : PerPlace, p = .pollSleep ∧ q.per.pstep = .sleep ∨ p = .pollOut ∧ q.per.pstep = .checkOut ∨
      p = .pollIn ∧ q.per.pstep = .checkIn := by
    simpa [exists_or] using hpq
  have hat := hq.exchangeAt 0#16 hc hp
  have hleg : c.leg = .send := by rcases hc with ⟨rfl, -⟩ | ⟨rfl, -⟩ <;> rfl
  have hg : TunedStage.send.after q = stageAt c p := by
    rw [hat.after_send, stageAt_of_ne_settle (by simp [hleg]), hleg]
    rfl
  obtain ⟨v, fs, c', p', hend, hrest, hover⟩ := hat.of_tunedRun hq hg hrun hno
  obtain ⟨rfl, hp'⟩ := hend.of_tunedOver hrest hover
  obtain ⟨f, -, hdone⟩ := hend.done hp'
  exact ⟨v, f, hdone⟩

/-! ### The schedule without idle steps -/

/-- The places after the turns of a schedule, as long as each is one of the tuned schedule. -/
def placesAfter (ph : Phase) : List Agent → CtrlPlace → PerPlace → Option (CtrlPlace × PerPlace)
  | [], c, p => some (c, p)
  | a :: as, c, p => (nextPlaces ph a c p).bind fun x => placesAfter ph as x.1 x.2

/-- The tuned schedule, but for the end of the last sleep, leads from the first places to the last. -/
theorem placesAfter_tunedSchedule (ph : Phase) :
    placesAfter ph (tunedSchedule ph).dropLast .build .pollOut = some (.finished, .doneOut) := by
  cases ph <;> rfl

/-- Four bytes are decided by their list. -/
theorem toList_inj {b b' : Bytes4} (h : b.toList = b'.toList) : b = b' := by
  have htake := congrArg takeBytes4 h
  simpa using htake

/-- Once all fill bytes are drawn, they are those offered, where the rule allows these. -/
theorem InputsAt.fills_eq {answered : Bool} {n : Inputs} {f : Bytes4} {rest : List Byte}
    (h : InputsAt q v fs 4 answered n) (hf : q.inputs.fills = f.toList ++ rest)
    (hok : q.params.fillOk.allows f.toList = true) : fs = f.toList :=
  (List.append_inj (h.fills f rest hf hok) h.length).1

section
variable {f : Bytes4} {fills : List Byte} (hq : ExchangeStart q) (hfills : q.inputs.fills = f.toList ++ fills)
  (hallow : q.params.fillOk.allows f.toList = true) (hframe : NotFramed q.params.pOrder f)
include hq hfills hallow hframe

/-- A schedule that leads from places to places gives a tuned run, where stage 4 is over at its end. -/
theorem ExchangeAt.run {rest : List Agent} (as : List Agent) {g : TunedStage} {s : State} {v : Half} {fs : List Byte}
    {c : CtrlPlace} {p : PerPlace} (h : ExchangeAt q v fs c p s) (hg : g.after s = stageAt c p)
    (hsched : s.inputs.sched = as ++ rest) (has : placesAfter q.ctrl.phase as c p = some (c', p')) :
    ∃ t v' fs', ExchangeAt q v' fs' c' p' t ∧ t.inputs.sched = rest ∧ stepN as.length s = .next t ∧
      (stageAt c' p' = .rest → t.tunedOver = true → tunedRun as.length g s = some t) := by
  induction as generalizing g s v fs c p with
  | nil =>
    obtain ⟨rfl, rfl⟩ := Prod.mk.inj (Option.some.inj has)
    exact ⟨s, v, fs, h, hsched, rfl, fun hrest hover => tunedRun_zero.2 ⟨⟨hg.trans hrest, hover⟩, rfl⟩⟩
  | cons a as ih =>
    obtain ⟨⟨c₁, p₁⟩, hn, has⟩ := Option.bind_eq_some_iff.1 has
    have ht : s.inputs.turn = a := Inputs.turn_of_sched hsched
    have hfill : p = .fillValidate → noPacketIn q.params.pOrder fs = true := by
      rintro rfl
      have hin := h.inputs
      rw [CtrlPlace.got_of_rest h.fits] at hin
      rw [hin.fills_eq hfills hallow, noPacketIn_toList, hframe]
      rfl
    rw [← ht] at hn
    obtain ⟨u, v₁, fs₁, hstep, hsched₁, hat⟩ := h.step_next hq.ok hq.order hfill hn
    obtain ⟨t, v', fs', hat', hsched', hrun, htuned⟩ :=
      ih hat (hg ▸ ExchangeAt.after_next h.fits hn hat) (by rw [hsched₁, hsched]; rfl) has
    refine ⟨t, v', fs', hat', hsched', (stepN_succ_of_next _ hstep).trans hrun, fun hrest hover => ?_⟩
    refine tunedRun_succ.2 ⟨?_, u, hstep, htuned hrest hover⟩
    rw [hg, h.admits_eq hq.ok, hn]
    rfl

/-- The schedule without idle steps, from `C_BUILD` and `P_CHECK_OUT`, but for the end of the last sleep. -/
theorem ExchangeStart.run_tunedSchedule (hc : q.ctrl.cstep = .build) (hp : q.per.pstep = .checkOut)
    {rest : List Agent} (hsched : q.inputs.sched = (tunedSchedule q.ctrl.phase).dropLast ++ rest) :
    ∃ t v', tunedRun (tunedSchedule q.ctrl.phase).dropLast.length .send q = some t ∧
      stepN (tunedSchedule q.ctrl.phase).dropLast.length q = .next t ∧ t.inputs.sched = rest ∧
      ExchangeDone q v' f t ∧ t.per.pstep = .checkOut ∧ t.per.rstN = true ∧
      (q.ctrl.phase = .readMeasurement → ∀ w ws, q.inputs.samples = w :: ws → v' = w) := by
  have hat := hq.exchangeAt 0#16 (.inr ⟨rfl, hc⟩) (.inr (.inl ⟨rfl, hp⟩))
  obtain ⟨t, v', fs, hend, hn, hrun, htuned⟩ := hat.run hq hfills hallow hframe _ (g := .send)
    (by rw [hat.after_send]; rfl) hsched (placesAfter_tunedSchedule q.ctrl.phase)
  obtain ⟨f', rfl, hdone⟩ := hend.done (.inr (.inl rfl))
  obtain rfl := toList_inj (hend.inputs.fills_eq hfills hallow)
  refine ⟨t, v', htuned rfl ?_, hrun, hn, hdone, hend.per.pstep, hend.per.rstN, hend.inputs.sample rfl⟩
  simp [State.tunedOver, hend.ctrl.cstep, hend.per.pstep, hend.link, linkAt, CtrlPlace.cstep, PerPlace.pstep,
    PerPlace.inbound]

end

end

theorem acceptEvents_congr {ph : Phase} {v w : Half} (h : ph = .readMeasurement → v = w) :
    acceptEvents ph v = acceptEvents ph w := by
  by_cases hm : ph = .readMeasurement
  · rw [h hm]
  · simp [acceptEvents, hm]

/-- The tuned schedule ends with the end of the controller's sleep (R275). -/
theorem tunedSchedule_eq (ph : Phase) : tunedSchedule ph = (tunedSchedule ph).dropLast ++ [.controller] := by
  cases ph <;> rfl

/-- Settles O60: every tuned run follows the places of an exchange to the last ones, and the schedule without idle steps
leads there. -/
theorem tunedExchangeSucceeds : Obligations.TunedExchangeSucceeds := by
  constructor
  · intro k s t hcr hpr hov hok hord hquiet hrun hno
    obtain ⟨v, f, hdone⟩ :=
      ExchangeStart.done_of_tunedRun ⟨hcr, hpr, hov, hok, hord, hquiet⟩ hrun hno
    refine ⟨hdone.quiescent, hdone.cstep, hdone.phase, hdone.cRetry, hdone.pRetry, hdone.cRxp, hdone.overrun, ?_, f,
      hdone.drawn, hdone.perLog⟩
    rw [hdone.ctrlLog, acceptEvents_congr fun hm => (hdone.sample hm).symm]
    rfl
  · intro s f0 f1 f2 f3 fs v vs rest hcr hpr hov hok hord hquiet hc hp hsched hsamples hfills hallow hframe
    have hq : ExchangeStart s := ⟨hcr, hpr, hov, hok, hord, hquiet⟩
    rw [tunedSchedule_eq, List.append_assoc] at hsched
    obtain ⟨t, v', htuned, hrun, hn, hdone, hpstep, hrst, hsample⟩ :=
      hq.run_tunedSchedule (f := ⟨f0, f1, f2, f3⟩) hfills hallow hframe hc hp hsched
    have hend : Running .controller t := ⟨hdone.overrun, Inputs.turn_of_sched hn, hdone.ctrlRst⟩
    have hstep := (step_controller hend).trans (controllerStep_sleep (s := t.advance) hdone.cstep)
    have hlen : (tunedSchedule s.ctrl.phase).length = (tunedSchedule s.ctrl.phase).dropLast.length + 1 :=
      (congrArg List.length (tunedSchedule_eq _)).trans List.length_append
    have hsteps := (stepN_add_of_next 1 hrun).trans (stepN_one_of_next hstep)
    rw [← hlen] at hsteps
    obtain ⟨hx, hw, hin, hout, hie, hoe, -, hpoll⟩ := hdone.quiescent
    refine ⟨⟨t, by rw [← List.length_dropLast]; exact htuned⟩, _, hsteps,
      ⟨hx, hw, hin, hout, hie, hoe, .inr rfl, hpoll⟩, rfl, hpstep, hdone.phase, hdone.cRetry, hdone.pRetry, ?_,
      hdone.perLog, hdone.overrun, congrArg List.tail hn⟩
    refine hdone.ctrlLog.trans ?_
    rw [acceptEvents_congr fun hm => hsample hm v vs hsamples]
    rfl

end Sys2Proof.Machine

/-! PROOFS of the peripheral statements (spec/41_peripheral.md): what each request does at `P_VALIDATE`, the one sample
of a measurement, the micro-steps of the peripheral, its whole cycle, and the row of noise that brings the reset. -/

namespace Sys2Proof.Machine

/-! ### The requests -/

/-- Settles O1: the row's meaning, and the bytes of its reply, computed. -/
theorem getIdentityRepliesWithTheIdentityConstant : Obligations.GetIdentityRepliesWithTheIdentityConstant :=
  ⟨fun _ => rfl, by decide⟩

/-- Settles O2: the row's meaning, and the bytes of its reply, computed. -/
theorem getUnitRepliesWithTheUnitConstant : Obligations.GetUnitRepliesWithTheUnitConstant :=
  ⟨fun _ => rfl, by decide⟩

/-- Settles O4: the row's meaning, which does not depend on the payload being another than the three commands. -/
theorem unrecognizedCommandIsOnlyLogged : Obligations.UnrecognizedCommandIsOnlyLogged :=
  fun _ _ _ _ _ => rfl

/-- Two events raised in one step stand on the port and in the record in their order (R51, R177). -/
theorem EvOut.raise_raise (raw raw' : Half) (e e' : Event) (o : EvOut) :
    (o.raise raw e).raise raw' e' =
      { port := o.port ++ [e.record raw, e'.record raw'], log := o.log ++ [e, e'] } := by
  simp [EvOut.raise]

/-- Settles O5: the two branches of `Per.countNoise`. -/
theorem noiseIsCountedAndNotAnswered : Obligations.NoiseIsCountedAndNotAnswered := by
  intro s h p _
  have hexec : exec (.noise h p) s = s.perStep (·.countNoise s.params.retryW s.params.perClearOnReset h) := rfl
  rw [hexec, State.perStep_eq]
  by_cases hs : 25 < satInc s.params.retryW s.per.pRetry
  · rw [if_pos hs, Per.countNoise_of_spent (p := s.per.begin) hs, EvOut.raise_raise]
    rfl
  · rw [if_neg hs, Per.countNoise_of_not_spent (p := s.per.begin) hs]
    rfl

/-- Settles O6: each of the four well-framed outcomes of `exec_request_cases` begins with `Per.acceptFrame`. -/
theorem wellFramedRequestsClearTheCount : Obligations.WellFramedRequestsClearTheCount := by
  intro s w hf
  constructor
  · rcases exec_request_cases w s with ⟨hne, -⟩ | ⟨-, ⟨-, e⟩ | ⟨-, e⟩ | ⟨-, e⟩ | ⟨-, -, -, e⟩⟩
    · exact absurd hf hne
    all_goals exact ⟨_, e, rfl⟩
  · exact if_pos ((framed_iff w).2 hf)

/-! ### The one sample of a measurement -/

section
variable {s t : State}

/-- The controller's turn uses no input. -/
theorem CtrlMove.samples (m : CtrlMove s t) : t.inputs.samples = s.inputs.samples := by
  rw [m.frame.inputs]

/-- Of the peripheral's micro-steps, `P_SAMPLE` alone uses a sample (R180). -/
theorem PerMove.samples (m : PerMove s t) (hne : s.per.pstep ≠ .sample) : t.inputs.samples = s.inputs.samples := by
  cases m with
  | sample h => exact absurd h hne
  | _ => rfl

/-- A beat uses no sample. -/
theorem WireMove.samples (m : WireMove s t) : t.inputs.samples = s.inputs.samples := by
  cases m with
  | sending _ _ _ _ _ _ _ _ hn =>
    obtain ⟨-, -, hsamples⟩ := hn
    exact hsamples
  | receiving _ _ _ _ _ _ _ _ _ hn =>
    obtain ⟨-, -, hsamples⟩ := hn
    exact hsamples
  | held => rfl

/-- No move uses a sample but the peripheral's at `P_SAMPLE` (R180). -/
theorem Move.samples (m : Move s t) (hne : ¬(s.inputs.turn = .peripheral ∧ s.per.pstep = .sample)) :
    t.inputs.samples = s.inputs.samples := by
  cases m with
  | controller _ _ m => exact m.samples
  | peripheral ht _ m => exact m.samples fun hp => hne ⟨ht, hp⟩
  | wire _ m => exact m.samples
  | controllerHeld | peripheralHeld | platform => rfl

end

/-- Settles O3: the dispatch and the micro-step `P_SAMPLE` by their meanings, and every other move by
`Move.samples`. -/
theorem getMeasurementTakesOneSampleUnmodified : Obligations.GetMeasurementTakesOneSampleUnmodified := by
  refine ⟨fun _ => rfl, ?_, fun s t hstep hne => (step_move hstep).2.samples hne⟩
  rintro s _ hrun hp rfl
  exact (step_peripheral hrun).trans (peripheralStep_sample hp)

/-! ### The micro-steps of the peripheral -/

/-- Settles O37: the two micro-steps. -/
theorem peripheralTurnsBufferingOn : Obligations.PeripheralTurnsBufferingOn :=
  fun _ hrun =>
    ⟨fun hp => (step_peripheral hrun).trans (peripheralStep_initIn hp),
      fun hp => (step_peripheral hrun).trans (peripheralStep_initOut hp)⟩

/-- Settles O38: the micro-step takes the outbound count. -/
theorem peripheralSkipsUntilTheReplyHasDrained : Obligations.PeripheralSkipsUntilTheReplyHasDrained :=
  fun _ hrun hp => (step_peripheral hrun).trans (peripheralStep_checkOut hp)

/-- Settles O39: the micro-step takes the inbound count. -/
theorem peripheralWaitsForAWholePacket : Obligations.PeripheralWaitsForAWholePacket :=
  fun _ hrun hp => (step_peripheral hrun).trans (peripheralStep_checkIn hp)

/-- The reply is queued wherever the transport's `send` is enabled (R182, R268). -/
theorem peripheralStep_sent {s : State} (hp : s.per.pstep = .send) (he : s.link.outEn = true)
    (hroom : s.link.outFifo.length + 4 ≤ s.params.outDepth) :
    peripheralStep s =
      .next { s with per := s.per.sent, link := s.link.queue (s.per.txBytes s.params.pOrder) } := by
  rw [peripheralStep_send hp]
  rcases peripheralSend_cases s with ⟨-, e⟩ | ⟨hno, -⟩
  · exact e
  · exact absurd ⟨he, hroom⟩ hno

/-- Settles O41: there is room, so the reply is queued. -/
theorem peripheralQueuesTheReplyBytes : Obligations.PeripheralQueuesTheReplyBytes :=
  fun _ hrun hp he hroom => (step_peripheral hrun).trans (peripheralStep_sent hp he hroom)

/-- Settles O42: the four micro-steps. -/
theorem peripheralRecoversInOrder : Obligations.PeripheralRecoversInOrder :=
  fun _ hrun =>
    ⟨fun hp => (step_peripheral hrun).trans (peripheralStep_reset hp),
      fun hp => (step_peripheral hrun).trans (peripheralStep_enableOut hp),
      fun hp => (step_peripheral hrun).trans (peripheralStep_enableIn hp),
      fun hp => (step_peripheral hrun).trans (peripheralStep_sleep hp)⟩

end Sys2Proof.Machine

namespace Sys2Proof.Machine

/-! ### What a cycle of the peripheral comes to, by the answers it gets -/

/-- The operations of a cycle up to the packet it takes (R172 to R175). -/
def takeOps : List Op := [.outboundPending, .inboundPending, .receive, .disableInbound]

/-- The operations that end a cycle which has taken a packet (R185, R186). -/
def closeOps : List Op := [.enableInbound, .wait .poll]

/-- The operations of a cycle from its transport reset on (R183, R184). -/
def recoverOps : List Op := .reset :: .enableOutbound :: closeOps

/-- The operations of a cycle from its reply with the payload `v` on (R182). -/
def replyOps (o : ByteOrder) (v : Half) : List Op := .send (ser o ⟨Config.sentinel, v⟩) :: closeOps

theorem PerAnswers.takesPacket_iff (a : PerAnswers) : a.takesPacket = true ↔ a.oc = 0 ∧ 4 ≤ a.ic := by
  simp [PerAnswers.takesPacket]

section
variable {a : PerAnswers} {o : ByteOrder} {w retry : Nat} {clear : Bool}

/-- A packet to take gets past the two checks that skip a cycle. -/
theorem PerAnswers.not_skipped (a : PerAnswers) (ht : a.takesPacket = true) : ¬a.oc ≠ 0 ∧ ¬a.ic < Config.pktBytes := by
  obtain ⟨hoc, hic⟩ := a.takesPacket_iff.1 ht
  exact ⟨not_not_intro hoc, Nat.not_lt.2 hic⟩

/-- A cycle that finds a reply still queued (R172). -/
theorem perCycle_of_queued (h : a.oc ≠ 0) :
    perCycle w clear o retry a = ⟨retry, [], [.outboundPending, .wait .poll]⟩ :=
  if_pos h

/-- A cycle that finds no whole packet (R173). -/
theorem perCycle_of_short (hoc : a.oc = 0) (hic : ¬4 ≤ a.ic) :
    perCycle w clear o retry a = ⟨retry, [], [.outboundPending, .inboundPending, .wait .poll]⟩ :=
  (if_neg (not_not_intro hoc)).trans (if_pos (Nat.not_le.1 hic))

/-- A cycle that takes noise above the threshold (R177). -/
theorem perCycle_of_spent (ht : a.takesPacket = true) (hf : (deser o a.b).header ≠ 0xC819#16)
    (hs : 25 < satInc w retry) :
    perCycle w clear o retry a =
      ⟨if clear then 0 else satInc w retry, [.eFrame (deser o a.b).header, .eBudget], takeOps ++ recoverOps⟩ := by
  obtain ⟨hoc, hic⟩ := a.not_skipped ht
  exact (if_neg hoc).trans ((if_neg hic).trans ((if_pos hf).trans (if_pos hs)))

/-- A cycle that takes noise up to the threshold (R177). -/
theorem perCycle_of_noise (ht : a.takesPacket = true) (hf : (deser o a.b).header ≠ 0xC819#16)
    (hs : ¬25 < satInc w retry) :
    perCycle w clear o retry a =
      ⟨satInc w retry, [.eFrame (deser o a.b).header], takeOps ++ closeOps⟩ := by
  obtain ⟨hoc, hic⟩ := a.not_skipped ht
  exact (if_neg hoc).trans ((if_neg hic).trans ((if_pos hf).trans (if_neg hs)))

/-- A cycle that takes a well-framed packet leaves the count at zero, and goes on as the payload says (R176, R178 to
R181). -/
theorem perCycle_of_framed (ht : a.takesPacket = true) (hf : (deser o a.b).header = 0xC819#16) :
    perCycle w clear o retry a =
      if (deser o a.b).payload = 0x0001#16 then ⟨0, [], takeOps ++ replyOps o Config.idConst⟩
      else if (deser o a.b).payload = 0x0002#16 then ⟨0, [], takeOps ++ replyOps o Config.unitConst⟩
      else if (deser o a.b).payload = 0x0003#16 then ⟨0, [], takeOps ++ Op.sample :: replyOps o a.v⟩
      else ⟨0, [.eUnknownCmd (deser o a.b).payload], takeOps ++ closeOps⟩ := by
  obtain ⟨hoc, hic⟩ := a.not_skipped ht
  exact (if_neg hoc).trans ((if_neg hic).trans (if_neg (not_not_intro hf)))

end

/-! ### The whole cycle of the peripheral -/

/-- `k` micro-steps of the peripheral alone lead from `s` to the end of its cycle, change the block alone, and leave the
count, the events and the operations of `r`. -/
def EndsCycle (a : PerAnswers) (k : Nat) (s : State) (r : PerCycleResult) : Prop :=
  ∃ p : Per, peripheralAloneRun a k s = some ({ s with per := p }, r.ops) ∧
    p.pstep = .checkOut ∧ p.pRetry = r.retry ∧ p.out.log = s.per.out.log ++ r.events

namespace EndsCycle

section
variable {s : State} {a : PerAnswers} {k retry : Nat} {p : Per} {evs : List Event} {ops : List Op}

/-- One micro-step more in front, with its operation and its events. -/
theorem of_step {evs' : List Event} (hstep : peripheralAlone a s = .next { s with per := p })
    (hlog : p.out.log = s.per.out.log ++ evs') (h : EndsCycle a k { s with per := p } ⟨retry, evs, ops⟩) :
    EndsCycle a (k + 1) s ⟨retry, evs' ++ evs, (s.per.op s.params.pOrder).toList ++ ops⟩ := by
  obtain ⟨q, hrun, hend, hretry, hevs⟩ := h
  exact ⟨q, peripheralAloneRun_succ hstep hrun, hend, hretry, by rw [hevs, hlog, List.append_assoc]⟩

/-- One micro-step more in front that requests an operation and raises nothing. -/
theorem of_request {op : Op} (hop : s.per.op s.params.pOrder = some op)
    (hstep : peripheralAlone a s = .next { s with per := p }) (hlog : p.out.log = s.per.out.log)
    (h : EndsCycle a k { s with per := p } ⟨retry, evs, ops⟩) :
    EndsCycle a (k + 1) s ⟨retry, evs, op :: ops⟩ := by
  have hlong := of_step hstep (hlog.trans (List.append_nil _).symm) h
  rwa [hop] at hlong

/-- From `P_SLEEP` (R186). -/
theorem sleep (hr : s.per.rstN = true) (hp : s.per.pstep = .sleep) :
    EndsCycle a 1 s ⟨s.per.pRetry, [], [.wait .poll]⟩ :=
  of_request (op := .wait .poll) (by simp [Per.op, hr, hp]) (peripheralAlone_sleep hp) rfl
    ⟨_, rfl, rfl, rfl, (List.append_nil _).symm⟩

/-- From `P_ENABLE_IN` (R185). -/
theorem enableIn (hr : s.per.rstN = true) (hp : s.per.pstep = .enableIn) :
    EndsCycle a 2 s ⟨s.per.pRetry, [], closeOps⟩ :=
  of_request (by simp [Per.op, hr, hp]) (peripheralAlone_enableIn hp) rfl (sleep hr rfl)

/-- From `P_SEND`, with a reply built (R182). -/
theorem send {v : Half} (hr : s.per.rstN = true) (hp : s.per.pstep = .send) (hv : s.per.pRsp = framedWord v) :
    EndsCycle a 3 s ⟨s.per.pRetry, [], replyOps s.params.pOrder v⟩ :=
  of_request (by simp [Per.op, hr, hp, Per.txBytes, hv, framedWord, packetOf_word]) (peripheralAlone_send hp) rfl
    (enableIn hr rfl)

/-- From `P_SAMPLE` (R180). -/
theorem sample (hr : s.per.rstN = true) (hp : s.per.pstep = .sample) :
    EndsCycle a 4 s ⟨s.per.pRetry, [], .sample :: replyOps s.params.pOrder a.v⟩ :=
  of_request (by simp [Per.op, hr, hp]) (peripheralAlone_sample hp) rfl (send hr rfl rfl)

/-- From `P_RESET` (R183, R184). -/
theorem reset (hr : s.per.rstN = true) (hp : s.per.pstep = .reset) :
    EndsCycle a 4 s ⟨s.per.pRetry, [], recoverOps⟩ :=
  of_request (by simp [Per.op, hr, hp]) (peripheralAlone_reset hp) rfl <|
    of_request (by simp [Per.op, hr]) (peripheralAlone_enableOut rfl) rfl (enableIn hr rfl)

/-- From `P_VALIDATE`, which requests nothing; the steps after it raise nothing. -/
theorem validate (hp : s.per.pstep = .validate)
    (hexec : exec (decodeRequestWord s.per.pReq) s = .next { s with per := p })
    (hlog : p.out.log = s.per.out.log ++ evs) (h : EndsCycle a k { s with per := p } ⟨retry, [], ops⟩) :
    EndsCycle a (k + 1) s ⟨retry, evs, ops⟩ := by
  have hlong := of_step ((peripheralAlone_validate hp).trans hexec) hlog h
  have hop : s.per.op s.params.pOrder = none := by simp [Per.op, hp]
  rwa [hop, List.append_nil] at hlong

/-- From `P_CHECK_OUT`, with a reply still queued (R172). -/
theorem checkOut_of_queued (hr : s.per.rstN = true) (hp : s.per.pstep = .checkOut) (hoc : a.oc ≠ 0) :
    EndsCycle a 2 s ⟨s.per.pRetry, [], [.outboundPending, .wait .poll]⟩ :=
  of_request (by simp [Per.op, hr, hp]) (peripheralAlone_checkOut hp) rfl (sleep hr (if_pos hoc))

/-- From `P_CHECK_OUT`, with nothing queued and no whole packet (R172, R173). -/
theorem checkOut_of_short (hr : s.per.rstN = true) (hp : s.per.pstep = .checkOut) (hoc : a.oc = 0)
    (hic : ¬4 ≤ a.ic) :
    EndsCycle a 3 s ⟨s.per.pRetry, [], [.outboundPending, .inboundPending, .wait .poll]⟩ := by
  have hin : (s.per.tookOutCount a.oc).pstep = .checkIn := if_neg (not_not_intro hoc)
  exact of_request (by simp [Per.op, hr, hp]) (peripheralAlone_checkOut hp) rfl <|
    of_request (by simp [Per.op, hr, hoc]) (peripheralAlone_checkIn hin) rfl (sleep hr (if_neg hic))

end

end EndsCycle

/-- The peripheral block at `P_VALIDATE`, after it has taken a packet with the answers `a` (R172 to R175). -/
def Per.taken (o : ByteOrder) (a : PerAnswers) (p : Per) : Per :=
  (((p.tookOutCount a.oc).tookInCount a.ic).received o a.b).disabledIn

section
variable (o : ByteOrder) (a : PerAnswers) (p : Per)

@[simp] theorem Per.taken_rstN : (p.taken o a).rstN = p.rstN := by simp [Per.taken]
@[simp] theorem Per.taken_pRetry : (p.taken o a).pRetry = p.pRetry := by simp [Per.taken]
@[simp] theorem Per.taken_pstep : (p.taken o a).pstep = .validate := by simp [Per.taken]
@[simp] theorem Per.taken_pReq : (p.taken o a).pReq = (deser o a.b).word := by simp [Per.taken]

end

section
variable {s : State} {a : PerAnswers}

/-- From `P_CHECK_OUT`, with a packet to take, four micro-steps take it (R172 to R175). -/
theorem EndsCycle.checkOut_of_packet {k retry : Nat} {evs : List Event} {ops : List Op} (hr : s.per.rstN = true)
    (hp : s.per.pstep = .checkOut) (ht : a.takesPacket = true)
    (h : EndsCycle a k { s with per := s.per.taken s.params.pOrder a } ⟨retry, evs, ops⟩) :
    EndsCycle a (k + 4) s ⟨retry, evs, takeOps ++ ops⟩ := by
  obtain ⟨hoc, hic⟩ := a.takesPacket_iff.1 ht
  have hin : (s.per.tookOutCount a.oc).pstep = .checkIn := if_neg (not_not_intro hoc)
  have hrecv : ((s.per.tookOutCount a.oc).tookInCount a.ic).pstep = .recv := if_pos hic
  exact of_request (by simp [Per.op, hr, hp]) (peripheralAlone_checkOut hp) rfl <|
    of_request (by simp [Per.op, hr, hoc]) (peripheralAlone_checkIn hin) rfl <|
    of_request (by simp [Per.op, hr, Config.pktBytes, hic]) (peripheralAlone_recv hrecv) rfl <|
    of_request (by simp [Per.op, hr]) (peripheralAlone_disableIn rfl) rfl h

/-- From `P_VALIDATE`, the rest of the cycle is what `perCycle` says of it, whatever the packet is (R176 to R181). -/
theorem endsCycle_of_validate (hr : s.per.rstN = true) (hp : s.per.pstep = .validate)
    (hreq : s.per.pReq = (deser s.params.pOrder a.b).word) (ht : a.takesPacket = true) :
    ∃ k ≤ 5, ∃ retry evs ops, EndsCycle a k s ⟨retry, evs, ops⟩ ∧
      perCycle s.params.retryW s.params.perClearOnReset s.params.pOrder s.per.pRetry a =
        ⟨retry, evs, takeOps ++ ops⟩ := by
  have hcases := exec_request_cases s.per.pReq s
  have hhdr : headerOf s.per.pReq = (deser s.params.pOrder a.b).header := by rw [hreq, headerOf_word]
  have hpay : payloadOf s.per.pReq = (deser s.params.pOrder a.b).payload := by rw [hreq, payloadOf_word]
  rw [hhdr, hpay] at hcases
  rcases hcases with ⟨hf, e⟩ | ⟨hf, ⟨h1, e⟩ | ⟨h2, e⟩ | ⟨h3, e⟩ | ⟨h1, h2, h3, e⟩⟩
  · by_cases hs : 25 < satInc s.params.retryW s.per.pRetry
    · rw [Per.countNoise_of_spent (p := s.per.begin) hs, EvOut.raise_raise] at e
      exact ⟨5, by decide, _, _, _, .validate hp e rfl (.reset hr rfl), perCycle_of_spent ht hf hs⟩
    · rw [Per.countNoise_of_not_spent (p := s.per.begin) hs] at e
      exact ⟨3, by decide, _, _, _, .validate hp e rfl (.enableIn hr rfl), perCycle_of_noise ht hf hs⟩
  · exact ⟨4, by decide, _, _, _, .validate hp e (List.append_nil _).symm (.send hr rfl rfl),
      (perCycle_of_framed ht hf).trans (if_pos h1)⟩
  · exact ⟨4, by decide, _, _, _, .validate hp e (List.append_nil _).symm (.send hr rfl rfl),
      (perCycle_of_framed ht hf).trans ((if_neg (by simp [h2])).trans (if_pos h2))⟩
  · exact ⟨5, by decide, _, _, _, .validate hp e (List.append_nil _).symm (.sample hr rfl),
      (perCycle_of_framed ht hf).trans <|
        (if_neg (by simp [h3])).trans ((if_neg (by simp [h3])).trans (if_pos h3))⟩
  · exact ⟨3, by decide, _, _, _, .validate hp e rfl (.enableIn hr rfl),
      (perCycle_of_framed ht hf).trans ((if_neg h1).trans ((if_neg h2).trans (if_neg h3)))⟩

/-- A cycle that takes a packet ends as `perCycle` says. -/
theorem endsCycle_of_packet (hr : s.per.rstN = true) (hp : s.per.pstep = .checkOut) (ht : a.takesPacket = true) :
    ∃ k ≤ 10, EndsCycle a k s
      (perCycle s.params.retryW s.params.perClearOnReset s.params.pOrder s.per.pRetry a) := by
  obtain ⟨k, hk, _, _, _, hrest, hcycle⟩ :=
    endsCycle_of_validate (s := { s with per := s.per.taken s.params.pOrder a })
      ((Per.taken_rstN _ _ _).trans hr) (Per.taken_pstep _ _ _) (Per.taken_pReq _ _ _) ht
  rw [Per.taken_pRetry] at hcycle
  have hend := EndsCycle.checkOut_of_packet hr hp ht hrest
  rw [← hcycle] at hend
  exact ⟨k + 4, by omega, hend⟩

/-- Every cycle ends as `perCycle` says, within ten micro-steps (R195). -/
theorem endsCycle_perCycle (hr : s.per.rstN = true) (hp : s.per.pstep = .checkOut) :
    ∃ k ≤ 10, EndsCycle a k s
      (perCycle s.params.retryW s.params.perClearOnReset s.params.pOrder s.per.pRetry a) := by
  by_cases hoc : a.oc = 0
  · by_cases hic : 4 ≤ a.ic
    · exact endsCycle_of_packet hr hp (a.takesPacket_iff.2 ⟨hoc, hic⟩)
    · rw [perCycle_of_short hoc hic]
      exact ⟨3, by decide, .checkOut_of_short hr hp hoc hic⟩
  · rw [perCycle_of_queued hoc]
    exact ⟨2, by decide, .checkOut_of_queued hr hp hoc⟩

end

/-- Settles O43: `endsCycle_perCycle` gives the run, which changes the peripheral block alone. -/
theorem peripheralCycleIsItsMicroSteps : Obligations.PeripheralCycleIsItsMicroSteps := by
  intro s a hr hp
  obtain ⟨k, hk, _, hrun, hend, hretry, hlog⟩ := endsCycle_perCycle (a := a) hr hp
  exact ⟨k, _, hk, hrun, hend, hretry, hlog, rfl, rfl, rfl, rfl⟩

/-! ### Twenty-six noise packets in a row -/

section
variable {w : Nat} {clear : Bool} {o : ByteOrder}

/-- Up to the threshold, a cycle that takes noise counts it and brings no reset (R177). -/
theorem perCycle_noise_below {a : PerAnswers} {count : Nat} (hw : 5 ≤ w) (ht : a.takesPacket = true)
    (hf : (deser o a.b).header ≠ 0xC819#16) (hc : count < 25) :
    (perCycle w clear o count a).retry = count + 1 ∧
      (perCycle w clear o count a).ops.contains .reset = false := by
  have hinc : satInc w count = count + 1 := satInc_eq hw (by omega)
  rw [perCycle_of_noise ht hf (by omega)]
  exact ⟨hinc, rfl⟩

/-- At the threshold, a cycle that takes noise brings the reset (R177). -/
theorem perCycle_noise_at_threshold {a : PerAnswers} (hw : 5 ≤ w) (ht : a.takesPacket = true)
    (hf : (deser o a.b).header ≠ 0xC819#16) : (perCycle w clear o 25 a).ops.contains .reset = true := by
  rw [perCycle_of_spent ht hf (by rw [satInc_eq hw (by decide)]; decide)]
  rfl

/-- With `n` noise packets to go to the threshold, the one after them brings the reset, and none before (R197). -/
theorem perTrace_noise (hw : 5 ≤ w) (n : Nat) {count : Nat} {as : List PerAnswers} (hc : count + n = 25)
    (hlen : as.length = n + 1)
    (hnoise : ∀ a ∈ as, a.takesPacket = true ∧ (deser o a.b).header ≠ 0xC819#16) :
    (perTrace w clear o count as).map (fun r => r.ops.contains .reset) = List.replicate n false ++ [true] := by
  induction n generalizing count as with
  | zero =>
    obtain ⟨a, rfl⟩ := List.length_eq_one_iff.1 hlen
    obtain ⟨ht, hf⟩ := hnoise a (List.mem_singleton_self a)
    obtain rfl : count = 25 := hc
    rw [perTrace, perTrace, List.map_singleton, perCycle_noise_at_threshold hw ht hf, List.replicate_zero,
      List.nil_append]
  | succ n ih =>
    obtain ⟨a, as, rfl⟩ := List.exists_cons_of_length_eq_add_one hlen
    obtain ⟨⟨ht, hf⟩, htail⟩ := List.forall_mem_cons.1 hnoise
    obtain ⟨hretry, hreset⟩ := perCycle_noise_below (clear := clear) hw ht hf (count := count) (by omega)
    rw [perTrace, List.map_cons, hretry, hreset, ih (by omega) (Nat.succ.inj hlen) htail, List.replicate_succ,
      List.cons_append]

/-- A cycle that takes a well-framed packet leaves the count at zero and brings no reset (R176). -/
theorem perCycle_framed_clears {a : PerAnswers} (ht : a.takesPacket = true)
    (hf : (deser o a.b).header = 0xC819#16) (count : Nat) :
    (perCycle w clear o count a).retry = 0 ∧ (perCycle w clear o count a).ops.contains .reset = false := by
  rw [perCycle_of_framed ht hf]
  split_ifs <;> exact ⟨rfl, rfl⟩

end

/-- Settles O44: from a count of zero there are 25 noise packets to go (`perTrace_noise`); a well-framed one clears the
count. -/
theorem twentySixNoisePacketsReset : Obligations.TwentySixNoisePacketsReset :=
  ⟨fun _ _ _ _ hw hlen hnoise => perTrace_noise hw 25 rfl hlen hnoise,
    fun _ _ _ count _ ht hf => perCycle_framed_clears ht hf count⟩

end Sys2Proof.Machine

/-! PROOFS of the measurement-decode statements (spec/43_decode.md): the parts add up to the reading (R251), the
remainder has the reading's sign (R252), and from these the ranges, the one loss and the corner values. -/

namespace Sys2Proof.Machine

/-! ### The remainder and the two parts -/

/-- The model's remainder is the library's remainder of the division that truncates toward zero (R17). -/
theorem trem_eq_tmod (a b : Int) : trem a b = a.tmod b := (Int.tmod_def a b).symm

theorem trem_norm_bounds (m : Int) : -99 ≤ trem m 100 ∧ trem m 100 ≤ 99 := by
  have hlow : -100 < m.tmod 100 := Int.lt_tmod_of_pos m (by decide)
  have hhigh : m.tmod 100 < 100 := Int.tmod_lt_of_pos m (by decide)
  rw [trem_eq_tmod]
  omega

theorem trem_nonneg {a : Int} (b : Int) (h : 0 ≤ a) : 0 ≤ trem a b := by
  rw [trem_eq_tmod]
  exact Int.tmod_nonneg b h

theorem trem_nonpos {a : Int} (b : Int) (h : a ≤ 0) : trem a b ≤ 0 := by
  have hneg : 0 ≤ (-a).tmod b := Int.tmod_nonneg b (by omega)
  rw [Int.neg_tmod] at hneg
  rw [trem_eq_tmod]
  omega

theorem decodeWhole_mul_add_trem (m : Int) : decodeWhole m * 100 + trem m 100 = m := by
  rw [trem_eq_tmod]
  exact Int.tdiv_mul_add_tmod m 100

theorem decodeFrac_eq_natAbs_trem (m : Int) : decodeFrac m = (trem m 100).natAbs := rfl

theorem decodeFrac_le (m : Int) : decodeFrac m ≤ 99 := by
  have hr := trem_norm_bounds m
  rw [decodeFrac_eq_natAbs_trem]
  omega

/-! ### The sign of the whole part, and the reading rebuilt from the parts on either side of zero -/

theorem decodeWhole_nonneg {m : Int} (h : 0 ≤ m) : 0 ≤ decodeWhole m := Int.tdiv_nonneg h (by decide)

theorem decodeWhole_neg {m : Int} (h : m ≤ -100) : decodeWhole m < 0 := by
  have hsum := decodeWhole_mul_add_trem m
  have hr := trem_norm_bounds m
  omega

theorem decodeWhole_eq_zero {m : Int} (hlow : -99 ≤ m) (hhigh : m ≤ -1) : decodeWhole m = 0 := by
  have hsum := decodeWhole_mul_add_trem m
  have hr := trem_norm_bounds m
  have hsign := trem_nonpos 100 (show m ≤ 0 by omega)
  omega

theorem decode_sum_of_nonneg {m : Int} (h : 0 ≤ m) : m = decodeWhole m * 100 + decodeFrac m := by
  have hsum := decodeWhole_mul_add_trem m
  rw [decodeFrac_eq_natAbs_trem, Int.natAbs_of_nonneg (trem_nonneg 100 h), hsum]

theorem decode_sum_of_nonpos {m : Int} (h : m ≤ 0) : m = decodeWhole m * 100 - decodeFrac m := by
  have hsum := decodeWhole_mul_add_trem m
  rw [decodeFrac_eq_natAbs_trem, Int.ofNat_natAbs_of_nonpos (trem_nonpos 100 h), sub_neg_eq_add, hsum]

/-! ### The range of a payload -/

theorem asSigned16_bounds (v : Half) : -32768 ≤ asSigned16 v ∧ asSigned16 v ≤ 32767 :=
  ⟨BitVec.le_toInt v, BitVec.toInt_le⟩

/-- The remainder's sign is what keeps a whole part of -328 out at the lowest payload (R252, R253). -/
theorem decodeWhole_asSigned16_bounds (v : Half) :
    -327 ≤ decodeWhole (asSigned16 v) ∧ decodeWhole (asSigned16 v) ≤ 327 := by
  have hv := asSigned16_bounds v
  have hf := decodeFrac_le (asSigned16 v)
  rcases le_total 0 (asSigned16 v) with h | h
  · have hsum := decode_sum_of_nonneg h
    omega
  · have hsum := decode_sum_of_nonpos h
    omega

/-! ### The statements -/

/-- Settles O25: the ranges, and each register is wide enough for its range. -/
theorem decodeRangesFitTheRegisters : Obligations.DecodeRangesFitTheRegisters := by
  intro m
  obtain ⟨hwlow, hwhigh⟩ := decodeWhole_asSigned16_bounds m
  obtain ⟨hrlow, hrhigh⟩ := trem_norm_bounds (asSigned16 m)
  have hfrac := decodeFrac_le (asSigned16 m)
  refine ⟨hwlow, hwhigh, hfrac, hrlow, hrhigh, ?_, ?_⟩
  · exact BitVec.toInt_ofInt_eq_self (by decide) (by omega) (by omega)
  · exact Nat.mod_eq_of_lt (by omega)

/-- Settles O26: from 0 up and from -100 down the whole part has the sign with which the fractional part counts; between
them it is 0. -/
theorem decodeLosesOnlySmallNegativeSigns : Obligations.DecodeLosesOnlySmallNegativeSigns := by
  refine ⟨fun m hout => ?_, fun m hlow hhigh => decodeWhole_eq_zero hlow hhigh, by decide, by decide⟩
  rcases le_or_gt 0 (asSigned16 m) with h | h
  · rw [if_neg (decodeWhole_nonneg h).not_gt, one_mul]
    exact decode_sum_of_nonneg h
  · rw [if_pos (decodeWhole_neg (by omega)), neg_one_mul]
    exact decode_sum_of_nonpos h.le

/-- Settles O27: fourteen closed rows, each computed. -/
theorem decodeCornerValues : Obligations.DecodeCornerValues := by
  unfold Obligations.DecodeCornerValues
  decide

end Sys2Proof.Machine

/-! PROOFS of the link statements (spec/44_link_model.md): the beat, and the run a lost byte has faulted. -/

namespace Sys2Proof.Machine

/-- A beat raises the flag exactly where its byte meets a full inbound buffer (R267). -/
theorem Link.afterBeat_overrun_iff {depth : Nat} {d : Byte} {x : Xfer} {l : Link} (h : l.overrun = false) :
    (l.afterBeat depth d x).overrun = true ↔ l.inEn = true ∧ depth ≤ l.inFifo.length := by
  simp [Link.afterBeat, h]

/-- The link after a beat of a `receive`: the fill byte went down, and what came up is kept (R265). -/
theorem beatOn_receiving_afterBeat (p : Params) (acc : List Byte) (l : Link) (n : Inputs) :
    (beatOn p (.receiving acc) l n).1 = l.afterBeat p.inDepth (n.fill p.fillOk) (.recv (acc ++
      [if l.outEn then l.outFifo.headD (n.underflow p.underflowOk) else n.underflow p.underflowOk])) :=
  beatOn_receiving p acc l n

/-- Settles O45: a beat of either kind leaves the link `afterBeat` and, besides it, changes the inputs alone. -/
theorem beatMovesOneByteEachWay : Obligations.BeatMovesOneByteEachWay := by
  intro s hrun hw down frame
  have hover : s.link.overrun = false := hrun.1
  refine ⟨fun b i d hx hd => ?sending, fun acc hx hl => ?receiving⟩
  case sending =>
    obtain ⟨m, -, hbeat⟩ := wireStep_sending (s := s.advance) hw hx hd
    exact ⟨_, (step_wire hrun).trans hbeat, rfl, ⟨rfl, Link.afterBeat_overrun_iff hover⟩,
      rfl, rfl, rfl, rfl, rfl, rfl, rfl⟩
  case receiving =>
    have hbeat := wireStep_receiving (s := s.advance) hw hx hl
    rw [beatOn_receiving_afterBeat] at hbeat
    exact ⟨_, (step_wire hrun).trans hbeat, rfl, ⟨rfl, Link.afterBeat_overrun_iff hover⟩,
      rfl, rfl, rfl, rfl, rfl, rfl, rfl⟩

/-- Settles O46: the flag is looked at before any agent has its turn (log entry 12). -/
theorem overrunFaultsEveryLaterStep : Obligations.OverrunFaultsEveryLaterStep :=
  fun _ hover => if_pos hover

end Sys2Proof.Machine

/-! PROOFS of the reset statements (spec/70_reset_and_hazards.md): the state after reset, the platform's turn at the
pins, and the turns of a block held in reset. -/

namespace Sys2Proof.Machine

/-- Settles O48: each register as it stands in the state after reset; the parameters' limits are part of the invariant
that state satisfies. -/
theorem resetLeavesTheStateOfTheSpec : Obligations.ResetLeavesTheStateOfTheSpec :=
  have hparams : State.reset.params.Ok := resetSatisfiesTheInvariant.1
  ⟨rfl, rfl, rfl, rfl, rfl, rfl, rfl, rfl, rfl, rfl, rfl, rfl, rfl, rfl, rfl, rfl, hparams⟩

section
variable {s : State}

/-- The platform's turn drives the two pins and does nothing else (R331, R335). -/
theorem step_platform {c p : Bool} (hx : s.ctrl.rstN = true ∨ s.link.xfer = .idle) (ho : s.link.overrun = false)
    (ht : s.inputs.turn = .platform c p) :
    step s = .next { s.advance with ctrl := s.ctrl.setPin c, per := s.per.setPin p } := by
  rw [step_of_running hx ho, ht]
  rfl

/-- The turn of a controller held in reset (R331), with no transfer abandoned (U10). -/
theorem step_controller_of_reset (hr : s.ctrl.rstN = false) (hx : s.link.xfer = .idle) (ho : s.link.overrun = false)
    (ht : s.inputs.turn = .controller) : step s = .next { s.advance with ctrl := s.ctrl.heldInReset } := by
  rw [step_of_running (.inr hx) ho, ht]
  exact if_neg (Bool.eq_false_iff.1 hr)

/-- The turn of a peripheral held in reset (R331). -/
theorem step_peripheral_of_reset (hx : s.ctrl.rstN = true ∨ s.link.xfer = .idle) (hr : s.per.rstN = false)
    (ho : s.link.overrun = false) (ht : s.inputs.turn = .peripheral) :
    step s = .next { s.advance with per := s.per.heldInReset } := by
  rw [step_of_running hx ho, ht]
  exact if_neg (Bool.eq_false_iff.1 hr)

end

/-- Settles O49: a pin driven low and a turn in reset leave the same registers (`heldInReset`), and a block whose pin is
low has no operation to present. -/
theorem blocksAreHeldInReset : Obligations.BlocksAreHeldInReset := by
  refine ⟨fun s c p hx ho ht => ?pins, fun s hr hx ho ht => ?controller, fun s hx hr ho ht => ?peripheral⟩
  case pins => exact step_platform hx ho ht
  case controller =>
    exact ⟨_, step_controller_of_reset hr hx ho ht, rfl, Ctrl.op_of_reset rfl, rfl, rfl, rfl⟩
  case peripheral =>
    exact ⟨_, step_peripheral_of_reset hx hr ho ht, rfl, Per.op_of_reset rfl, rfl, rfl, rfl⟩

end Sys2Proof.Machine
